-- ==== Sys2Proof/Word.lean ====
section
/-! DEFINITION. The words the LT8 exchanges with the outside: bytes on the request port and the loop
links, and the number of a loop link. -/

namespace Sys2Proof

/-- One byte of a frame (R168, R170). -/
abbrev Byte := BitVec 8

/-- A nine-bit character of a loop link: its control mark in bit 8, then eight bits (R170). -/
abbrev LinkChar := BitVec 9

/-- A loop link, 0 to 7 (00_scope.md, 1.4 Numbering). -/
abbrev LinkNo := Fin 8

/-- A set that software reads or names as a mask: one bit per member, from bit 0 (R169). -/
abbrev Mask (n : Nat) := BitVec n

end Sys2Proof
end

