-- ==== Sys2Proof/Config.lean ====
section
/-! DEFINITION. The fixed quantities of the part, and the values the manual leaves open. -/

namespace Sys2Proof.Config

/-- The top of circuit time, 2^48 - 1 (R1). -/
abbrev maxTime : Nat := 281474976710655

/-- Marks are 10,000 microseconds apart (R4). -/
abbrev markStep : Nat := 10000

/-- The last mark a 32-bit count can number (R5). -/
abbrev lastMark : Nat := 4294967295

/-- Raw ticks after which the reference is absent (R9). -/
abbrev absenceLimit : Nat := 1500000

/-- The highest transponder code (R27, R53). -/
abbrev maxCode : Nat := 16777214

/-- A 32-bit time at this value carries the over-range mark (R84). -/
abbrev topTime : Nat := 4294967295

/-- Entries of one link's open passing table (R36). -/
abbrev passingCapacity : Nat := 16

/-- Entries of the unknown list (R75). -/
abbrev unknownCapacity : Nat := 16

/-- Slots of the competitor table (R60). -/
abbrev slotCount : Nat := 128

/-- Entries of the lead table (R123). -/
abbrev leadSize : Nat := 128

/-- Microseconds of circuit time without a delimiter after which framing is lost (R23). -/
abbrev framingGap : Nat := 1000

/-- Microseconds in one millisecond, second and minute (00_scope.md, 1.4 Time). -/
abbrev perMs : Nat := 1000
abbrev perSecond : Nat := 1000000
abbrev perMinute : Nat := 60000000

/-- FREE VALUE, log 7. The marks byte of a reply selection that reads NOT_READY: R157 gives its result and
its kind, and says nothing of its marks. The argument is the number of such replies before it. -/
opaque notReadyMarks : Nat → BitVec 2

/-- FREE VALUE, log 8. The byte that answers in READ LOOP whether the line map or the pit settings are valid: no
state table and no rule lists the values of these two answers for R169 to code. -/
opaque answerByte : Bool → Byte

end Sys2Proof.Config
end

