-- ==== Sys2Proof/Syntax.lean ====
section
/-! DEFINITION. The commands of the LT8: one constructor of `Instr` per row of spec/opcode_table.json,
and the arguments that requests and reports carry. Argument bytes are those between the length byte and
the check byte of a request frame (R168). -/

namespace Sys2Proof

/-! ## Enumerations, in the order of the Values columns (R169 codes them in that order) -/

/-- Source selection (01, table of state). -/
inductive Source where
  | internal | reference
  deriving DecidableEq, Repr

/-- How the rate of circuit time is governed (01, table of state). -/
inductive Mode where
  | free | locked | holdover
  deriving DecidableEq, Repr

/-- What the REF monitor believes (01, table of state). -/
inductive Monitor where
  | absent | qualifying | qualified
  deriving DecidableEq, Repr

/-- The verdict on a REF interval (R7). -/
inductive Verdict where
  | good | bad
  deriving DecidableEq, Repr

/-- The role of a loop link (R15). -/
inductive Role where
  | off | line | pitIn | pitOut
  deriving DecidableEq, Repr

/-- Which reports restart the silence timer (R25). -/
inductive Liveness where
  | mark | traffic
  deriving DecidableEq, Repr

/-- The state of a loop link (R24). -/
inductive LinkState where
  | off | down | silent | live
  deriving DecidableEq, Repr

/-- The ten loop flags, in the order of their mask (R169). -/
inductive LoopFlag where
  | weak | strong | stale | corrupt | outOfOrder | crowded | sparse | noisy | linkState | noiseChange
  deriving DecidableEq, Repr

/-- The quality of a passing that is handed on (R44). -/
inductive Quality where
  | good | saturated | stalled
  deriving DecidableEq, Repr

/-- Why a passing was rejected (R72). -/
inductive Reason where
  | echo | tooSoon | pitCancelled | outOfState
  deriving DecidableEq, Repr

/-- The states of a record that is not FREE (04, 4.2); a FREE slot holds no record. -/
inductive RecState where
  | enrolled | running | pit | finished | retired | excluded
  deriving DecidableEq, Repr

/-- Lap flags (R92), in the order of their mask. -/
inductive LapFlag where
  | caution | suspended | pit | out
  deriving DecidableEq, Repr

/-- Notices (R73), in the order of their mask. -/
inductive Notice where
  | newBest | deltaCross | pitSpeeding | rejected | position | finished | lap
  deriving DecidableEq, Repr

/-- Causes (R161), in the order of their mask. -/
inductive Cause where
  | session | order | records | loops | time | unknown
  deriving DecidableEq, Repr

/-- Session states (08, 8.1). -/
inductive Phase where
  | idle | armed | green | caution | suspended | chequered | closed | rolling
  deriving DecidableEq, Repr

/-- Session types (R130). -/
inductive SessionType where
  | practice | qualifying | race
  deriving DecidableEq, Repr

/-- Delta directions (R98, R130). -/
inductive DeltaDirection where
  | off | toAhead | toBehind | both
  deriving DecidableEq, Repr

/-- What took the session to GREEN (R134). -/
inductive GreenSource where
  | start | request
  deriving DecidableEq, Repr

/-- What brought the chequer (R139, R140, R141). -/
inductive ChequerCause where
  | request | timeLimit | leader | lapLimit
  deriving DecidableEq, Repr

/-- The phase of a rollover run (R149). -/
inductive RollPhase where
  | order | slots
  deriving DecidableEq, Repr

/-- Result codes, from 00h in this order (R168). -/
inductive Result where
  | ok | notReady | frameError | unknownKind | badArgument | noSuchRecord | codeInUse | numberInUse
  | tableFull | wrongState | locked | busy | notQualified | badConfig
  deriving DecidableEq, Repr

/-- The request kinds, from 01h in this order (R168). -/
inductive RequestKind where
  | selectSource | readTime | setLoop | setSector | setPit | readLoop | clearLoopFlags | enrol | amend
  | retire | reinstate | exclude | release | adjust | readRecord | setCapacity | readUnknown
  | dismissUnknown | readOrder | sessionSetup | arm | green | caution | clearCaution | suspend | resume
  | chequer | close | rollover | haltRollover | readSession | readSummary | readChanges | acknowledge
  | setModeration | resetTables
  deriving DecidableEq, Repr

/-! ## Arguments of the requests -/

/-- The nine settings of a link (02, Settings). -/
structure LinkSettings where
  latency   : Nat
  threshold : Nat
  saturation : Nat
  closeGap  : Nat
  maxDwell  : Nat
  minHits   : Nat
  maxAge    : Nat
  silence   : Nat
  liveness  : Liveness
  deriving DecidableEq, Repr

/-- SET LOOP (R17). `linePos` is read only when the role is LINE. -/
structure SetLoopArgs where
  link     : LinkNo
  role     : Role
  linePos  : Nat
  settings : LinkSettings
  deriving DecidableEq, Repr

/-- SET SECTOR (R21). -/
structure SetSectorArgs where
  sector  : Fin 8
  minimum : Nat
  deriving DecidableEq, Repr

/-- SET PIT, and the pit settings it stores (R22). -/
structure PitSettings where
  inAfter   : Nat
  outBefore : Nat
  length    : Nat
  limit     : Nat
  deriving DecidableEq, Repr

/-- CLEAR LOOP FLAGS (R33); no link named is all links. -/
structure ClearFlagsArgs where
  link : Option LinkNo
  mask : Mask 10
  deriving DecidableEq, Repr

/-- ENROL (R61). -/
structure EnrolArgs where
  code  : Nat
  car   : Nat
  cls   : Nat
  grid  : Option Nat
  deriving DecidableEq, Repr

/-- What AMEND does to the grid position (R62). -/
inductive GridChange where
  | keep
  | give (position : Nat)
  | remove
  deriving DecidableEq, Repr

/-- AMEND (R62). -/
structure AmendArgs where
  slot : Nat
  code : Option Nat
  car  : Option Nat
  cls  : Option Nat
  grid : GridChange
  deriving DecidableEq, Repr

/-- ADJUST (R127). -/
structure AdjustArgs where
  slot    : Nat
  laps    : Int
  penalty : Nat
  deriving DecidableEq, Repr

/-- The three ways READ RECORD names a record (R67). -/
inductive RecordName where
  | slot (n : Nat)
  | code (n : Nat)
  | car (n : Nat)
  deriving DecidableEq, Repr

/-- READ RECORD (R67). -/
structure ReadRecordArgs where
  who   : RecordName
  clear : Bool
  deriving DecidableEq, Repr

/-- DISMISS UNKNOWN (R76); no code named is ALL. -/
structure DismissArgs where
  code      : Option Nat
  clearFull : Bool
  deriving DecidableEq, Repr

/-- READ ORDER (R128). -/
structure ReadOrderArgs where
  first : Nat
  count : Nat
  deriving DecidableEq, Repr

/-- SESSION SETUP, and the setup it stores (R130). Close timeout and time limit in minutes, echo guard
in seconds; a limit of 0 is none. -/
structure SessionSetup where
  type         : SessionType
  lapLimit     : Nat
  timeLimit    : Nat
  closeTimeout : Nat
  echoGuard    : Nat
  delta        : DeltaDirection
  deriving DecidableEq, Repr

/-- The carry set of a rollover (R148). -/
structure CarrySet where
  bests         : Bool
  gridFromOrder : Bool
  keepExcluded  : Bool
  deriving DecidableEq, Repr

/-- ROLLOVER (R148). -/
structure RolloverArgs where
  type  : SessionType
  carry : CarrySet
  deriving DecidableEq, Repr

/-! ## The commands -/

/-- One constructor per row of spec/opcode_table.json. A request carries its argument bytes. -/
inductive Instr where
  | pinReset
  | correctiveTick
  | markIssue
  | refEdge
  | absenceExpiry
  | startEdge
  | framingGained (link : LinkNo)
  | framingLost (link : LinkNo)
  /-- A HIT report as received on a link (R30): code, mark number, offset, strength. -/
  | hit (link : LinkNo) (code : BitVec 24) (mark : BitVec 8) (offset : BitVec 16) (strength : BitVec 8)
  | echo (link : LinkNo) (mark : BitVec 8)
  | noise (link : LinkNo) (level : BitVec 8)
  /-- A report that fails R27. -/
  | invalidReport (link : LinkNo)
  | silenceExpiry (link : LinkNo)
  /-- The close expiry of the OPEN entry of a code on a link (R42). -/
  | closeExpiry (link : LinkNo) (code : Nat)
  /-- The removal expiry of the GUARD entry of a code on a link (R47). -/
  | guardRemoval (link : LinkNo) (code : Nat)
  | timeLimitExpiry
  | closeTimeoutExpiry
  | moderationExpiry
  /-- A request selection of so many whole bytes that fails R156 step 1. -/
  | frameError (received : Nat)
  /-- A sound request frame whose kind names no request (R156 step 2). -/
  | unknownKind (kind : Byte) (args : List Byte)
  /-- A reply selection that shifts out so many bytes after the reply-read code (R157, R168). -/
  | replySelection (count : Nat)
  | replyCompletion
  | selectSource (args : List Byte)
  | readTime (args : List Byte)
  | setLoop (args : List Byte)
  | setSector (args : List Byte)
  | setPit (args : List Byte)
  | readLoop (args : List Byte)
  | clearLoopFlags (args : List Byte)
  | enrol (args : List Byte)
  | amend (args : List Byte)
  | retire (args : List Byte)
  | reinstate (args : List Byte)
  | exclude (args : List Byte)
  | release (args : List Byte)
  | adjust (args : List Byte)
  | readRecord (args : List Byte)
  | setCapacity (args : List Byte)
  | readUnknown (args : List Byte)
  | dismissUnknown (args : List Byte)
  | readOrder (args : List Byte)
  | sessionSetup (args : List Byte)
  | arm (args : List Byte)
  | green (args : List Byte)
  | caution (args : List Byte)
  | clearCaution (args : List Byte)
  | suspend (args : List Byte)
  | resume (args : List Byte)
  | chequer (args : List Byte)
  | close (args : List Byte)
  | rollover (args : List Byte)
  | rolloverStep
  | haltRollover (args : List Byte)
  | readSession (args : List Byte)
  | readSummary (args : List Byte)
  | readChanges (args : List Byte)
  | acknowledge (args : List Byte)
  | setModeration (args : List Byte)
  | resetTables (args : List Byte)
  | rawTick
  deriving DecidableEq, Repr

end Sys2Proof
end

