-- ==== Sys2Proof/Decode.lean ====
section
/-! DEFINITION. Reading bytes into commands: CRC-8, field widths, enumeration codes, request arguments
(R168, R169), selections (R156), reports (R27, R170), and the encoder of each. `decodeTableWord` answers
none: no row of the table gives bits. -/

namespace Sys2Proof

/-! ## Bytes and numbers (R169: big-endian, signed values in two's complement) -/

/-- The number whose bytes, most significant first, are these. -/
def beNat (bs : List Byte) : Nat := bs.foldl (fun acc b => acc * 256 + b.toNat) 0

/-- The low `w` bytes of a number, most significant first. -/
def beBytes : Nat → Nat → List Byte
  | 0, _ => []
  | w + 1, n => beBytes w (n / 256) ++ [BitVec.ofNat 8 n]

/-- A signed value as the unsigned number of `w` bytes in two's complement. -/
def unsignedOf (w : Nat) (z : Int) : Nat := (z % (256 ^ w : Nat)).toNat

/-- The signed value that an unsigned number of `w` bytes stands for. -/
def signedOf (w n : Nat) : Int := if 2 * n < 256 ^ w then (n : Int) else (n : Int) - (256 ^ w : Nat)

/-- Splits bytes into numbers of the given widths; none unless the widths use up all the bytes. -/
def takeFields : List Nat → List Byte → Option (List Nat)
  | [], [] => some []
  | [], _ :: _ => none
  | w :: ws, bs =>
    if w ≤ bs.length then (takeFields ws (bs.drop w)).map (beNat (bs.take w) :: ·) else none

/-- Writes (width, number) items one after another. -/
def putFields : List (Nat × Nat) → List Byte
  | [] => []
  | (w, n) :: rest => beBytes w n ++ putFields rest

/-! ## CRC-8 (R170) -/

/-- One shift of the CRC register. -/
def crcShift (r : Byte) : Byte := if r.msb then (r <<< 1) ^^^ 0x07#8 else r <<< 1

/-- One byte taken into the CRC register. -/
def crcByte (r b : Byte) : Byte :=
  crcShift (crcShift (crcShift (crcShift (crcShift (crcShift (crcShift (crcShift (r ^^^ b))))))))

/-- The register after a run of bytes, from 00h. -/
def crc8 (bs : List Byte) : Byte := bs.foldl crcByte 0#8

/-- Bytes with their check byte appended. -/
def withCheck (bs : List Byte) : List Byte := bs ++ [crc8 bs]

/-! ## Codes of enumerations (R169: from 00h, in the order of the Values column) -/

/-- The code of a value: its place in the list of values. -/
def codeIn {α : Type} [DecidableEq α] (all : List α) (x : α) : Nat := all.idxOf x

def Source.all : List Source := [.internal, .reference]
def Mode.all : List Mode := [.free, .locked, .holdover]
def Monitor.all : List Monitor := [.absent, .qualifying, .qualified]
def Verdict.all : List Verdict := [.good, .bad]
def Role.all : List Role := [.off, .line, .pitIn, .pitOut]
def Liveness.all : List Liveness := [.mark, .traffic]
def LinkState.all : List LinkState := [.off, .down, .silent, .live]
def LoopFlag.all : List LoopFlag :=
  [.weak, .strong, .stale, .corrupt, .outOfOrder, .crowded, .sparse, .noisy, .linkState, .noiseChange]
def Quality.all : List Quality := [.good, .saturated, .stalled]
def Reason.all : List Reason := [.echo, .tooSoon, .pitCancelled, .outOfState]
def LapFlag.all : List LapFlag := [.caution, .suspended, .pit, .out]
def Notice.all : List Notice :=
  [.newBest, .deltaCross, .pitSpeeding, .rejected, .position, .finished, .lap]
def Cause.all : List Cause := [.session, .order, .records, .loops, .time, .unknown]
def Phase.all : List Phase :=
  [.idle, .armed, .green, .caution, .suspended, .chequered, .closed, .rolling]
def SessionType.all : List SessionType := [.practice, .qualifying, .race]
def DeltaDirection.all : List DeltaDirection := [.off, .toAhead, .toBehind, .both]
def GreenSource.all : List GreenSource := [.start, .request]
def ChequerCause.all : List ChequerCause := [.request, .timeLimit, .leader, .lapLimit]
def RollPhase.all : List RollPhase := [.order, .slots]
def Result.all : List Result :=
  [.ok, .notReady, .frameError, .unknownKind, .badArgument, .noSuchRecord, .codeInUse, .numberInUse,
   .tableFull, .wrongState, .locked, .busy, .notQualified, .badConfig]

/-- Record states are coded FREE 00h to EXCLUDED 06h (R169); FREE is a slot without a record. -/
def RecState.all : List RecState := [.enrolled, .running, .pit, .finished, .retired, .excluded]

/-- The code of a record's state. -/
def RecState.code (r : RecState) : Nat := codeIn RecState.all r + 1

/-- The request kinds in the order of R168. -/
def RequestKind.all : List RequestKind :=
  [.selectSource, .readTime, .setLoop, .setSector, .setPit, .readLoop, .clearLoopFlags, .enrol, .amend,
   .retire, .reinstate, .exclude, .release, .adjust, .readRecord, .setCapacity, .readUnknown,
   .dismissUnknown, .readOrder, .sessionSetup, .arm, .green, .caution, .clearCaution, .suspend, .resume,
   .chequer, .close, .rollover, .haltRollover, .readSession, .readSummary, .readChanges, .acknowledge,
   .setModeration, .resetTables]

/-- Kind bytes count from 01h (R168). -/
def RequestKind.code (k : RequestKind) : Nat := codeIn RequestKind.all k + 1

/-- The request a kind byte names; 00h and 25h to FEh name none (R168). -/
def RequestKind.ofCode (n : Nat) : Option RequestKind :=
  match n with
  | 0 => none
  | m + 1 => RequestKind.all[m]?

/-! ## Arguments of requests: ranges, then reading and writing (R168, R169) -/

/-- An argument that passes its range check, or none (answered BAD_ARGUMENT). -/
def checked {α : Type} (ok : α → Bool) (a : α) : Option α := if ok a then some a else none

/-- A number within both ends of a range. -/
def within (lo n hi : Nat) : Bool := decide (lo ≤ n) && decide (n ≤ hi)

/-- A loop link from its number. -/
def linkOf (n : Nat) : Option LinkNo := if h : n < 8 then some ⟨n, h⟩ else none

/-- A request that carries no argument has length 0 (R156 step 3). -/
def parseNone (bs : List Byte) : Option Unit := if bs.isEmpty then some () else none

/-- SELECT SOURCE: one enumeration (R12). -/
def parseSource (bs : List Byte) : Option Source :=
  match takeFields [1] bs with
  | some [c] => Source.all[c]?
  | _ => none

def sourceBytes (x : Source) : List Byte := putFields [(1, codeIn Source.all x)]

/-- The ranges of the nine settings (02, Settings; R17). -/
def LinkSettings.inRange (c : LinkSettings) : Bool :=
  within 0 c.latency 4095 && within 1 c.threshold 254 && within c.threshold c.saturation 255 &&
  within 5 c.closeGap 250 && within 100 c.maxDwell 5000 && within 1 c.minHits 8 &&
  within 1 c.maxAge 255 && within 10 c.silence 2550 && decide (c.silence % 10 = 0)

/-- The line position is checked only for a LINE role (R17). -/
def SetLoopArgs.inRange (a : SetLoopArgs) : Bool :=
  (decide (a.role ≠ .line) || within 0 a.linePos 7) && a.settings.inRange

def SetLoopArgs.parse (bs : List Byte) : Option SetLoopArgs :=
  match takeFields [1, 1, 1, 2, 1, 1, 1, 2, 1, 1, 2, 1] bs with
  | some [l, ro, p, lat, th, sa, gap, dw, mh, age, si, lv] =>
    match linkOf l, Role.all[ro]?, Liveness.all[lv]? with
    | some link, some role, some live =>
      checked SetLoopArgs.inRange
        { link := link, role := role, linePos := p,
          settings := { latency := lat, threshold := th, saturation := sa, closeGap := gap, maxDwell := dw,
                        minHits := mh, maxAge := age, silence := si, liveness := live } }
    | _, _, _ => none
  | _ => none

def SetLoopArgs.bytes (a : SetLoopArgs) : List Byte :=
  putFields [(1, a.link.val), (1, codeIn Role.all a.role), (1, a.linePos), (2, a.settings.latency),
    (1, a.settings.threshold), (1, a.settings.saturation), (1, a.settings.closeGap),
    (2, a.settings.maxDwell), (1, a.settings.minHits), (1, a.settings.maxAge), (2, a.settings.silence),
    (1, codeIn Liveness.all a.settings.liveness)]

/-- SET SECTOR (R21). -/
def SetSectorArgs.inRange (a : SetSectorArgs) : Bool := within 0 a.minimum 600000000

def SetSectorArgs.parse (bs : List Byte) : Option SetSectorArgs :=
  match takeFields [1, 4] bs with
  | some [n, t] =>
    match linkOf n with
    | some p => checked SetSectorArgs.inRange { sector := p, minimum := t }
    | none => none
  | _ => none

def SetSectorArgs.bytes (a : SetSectorArgs) : List Byte := putFields [(1, a.sector.val), (4, a.minimum)]

/-- SET PIT (R22): two different positions, a length and a limit. -/
def PitSettings.inRange (a : PitSettings) : Bool :=
  within 0 a.inAfter 7 && within 0 a.outBefore 7 && decide (a.inAfter ≠ a.outBefore) &&
  within 1 a.length 2000000 && within 1000 a.limit 40000

def PitSettings.parse (bs : List Byte) : Option PitSettings :=
  match takeFields [1, 1, 4, 2] bs with
  | some [i, o, n, v] => checked PitSettings.inRange { inAfter := i, outBefore := o, length := n, limit := v }
  | _ => none

def PitSettings.bytes (a : PitSettings) : List Byte :=
  putFields [(1, a.inAfter), (1, a.outBefore), (4, a.length), (2, a.limit)]

/-- READ LOOP: one link (R34). -/
def parseLink (bs : List Byte) : Option LinkNo :=
  match takeFields [1] bs with
  | some [n] => linkOf n
  | _ => none

def linkBytes (l : LinkNo) : List Byte := putFields [(1, l.val)]

/-- A mask naming any of the ten flags (R33). -/
def flagMask (n : Nat) : Option (Mask 10) := if n < 1024 then some (BitVec.ofNat 10 n) else none

/-- CLEAR LOOP FLAGS: selector 00h and a link, or 01h for all links, then the mask (R33, R169). -/
def ClearFlagsArgs.parse (bs : List Byte) : Option ClearFlagsArgs :=
  match bs with
  | [] => none
  | sel :: rest =>
    if sel = 0x00#8 then
      match takeFields [1, 2] rest with
      | some [n, m] =>
        match linkOf n, flagMask m with
        | some l, some k => some { link := some l, mask := k }
        | _, _ => none
      | _ => none
    else if sel = 0x01#8 then
      match takeFields [2] rest with
      | some [m] => (flagMask m).map fun k => { link := none, mask := k }
      | _ => none
    else none

def ClearFlagsArgs.bytes (a : ClearFlagsArgs) : List Byte :=
  match a.link with
  | some l => 0x00#8 :: putFields [(1, l.val), (2, a.mask.toNat)]
  | none => 0x01#8 :: putFields [(2, a.mask.toNat)]

def codeOk (n : Nat) : Bool := within 1 n Config.maxCode
def carOk (n : Nat) : Bool := within 1 n 999
def classOk (n : Nat) : Bool := within 0 n 15
def gridOk (n : Nat) : Bool := within 1 n 128
def slotOk (n : Nat) : Bool := within 1 n 128

/-- ENROL (R61). -/
def EnrolArgs.inRange (a : EnrolArgs) : Bool :=
  codeOk a.code && carOk a.car && classOk a.cls && a.grid.all gridOk

/-- Argument mask first: bit 0 announces a grid position (R169). -/
def EnrolArgs.parse (bs : List Byte) : Option EnrolArgs :=
  match bs with
  | [] => none
  | m :: rest =>
    if m = 0x00#8 then
      match takeFields [3, 2, 1] rest with
      | some [c, n, k] => checked EnrolArgs.inRange { code := c, car := n, cls := k, grid := none }
      | _ => none
    else if m = 0x01#8 then
      match takeFields [3, 2, 1, 1] rest with
      | some [c, n, k, g] => checked EnrolArgs.inRange { code := c, car := n, cls := k, grid := some g }
      | _ => none
    else none

def EnrolArgs.bytes (a : EnrolArgs) : List Byte :=
  match a.grid with
  | none => 0x00#8 :: putFields [(3, a.code), (2, a.car), (1, a.cls)]
  | some g => 0x01#8 :: putFields [(3, a.code), (2, a.car), (1, a.cls), (1, g)]

/-- A grid change whose position, if it gives one, is in range. -/
def GridChange.inRange : GridChange → Bool
  | .keep => true
  | .give n => gridOk n
  | .remove => true

/-- AMEND (R62). -/
def AmendArgs.inRange (a : AmendArgs) : Bool :=
  slotOk a.slot && a.code.all codeOk && a.car.all carOk && a.cls.all classOk && a.grid.inRange

/-- The next announced number, where its mask bit is set. -/
def popIf (announced : Bool) (vs : List Nat) : Option Nat × List Nat :=
  if announced then (vs.head?, vs.tail) else (none, vs)

/-- The widths of what an AMEND mask announces, in bit order; bit 4 carries no byte (R169). -/
def amendWidths (m : Byte) : List Nat :=
  (if m.getLsbD 0 then [3] else []) ++ (if m.getLsbD 1 then [2] else []) ++
  (if m.getLsbD 2 then [1] else []) ++ (if m.getLsbD 3 then [1] else [])

/-- Any mask bit above 4, and bits 3 and 4 together, are answered BAD_ARGUMENT (R169). -/
def amendMaskOk (m : Byte) : Bool := decide (m.toNat < 32) && !(m.getLsbD 3 && m.getLsbD 4)

def AmendArgs.parse (bs : List Byte) : Option AmendArgs :=
  match bs with
  | m :: sl :: rest =>
    if amendMaskOk m then
      match takeFields (amendWidths m) rest with
      | some vs =>
        let c := popIf (m.getLsbD 0) vs
        let n := popIf (m.getLsbD 1) c.2
        let k := popIf (m.getLsbD 2) n.2
        let g := popIf (m.getLsbD 3) k.2
        checked AmendArgs.inRange
          { slot := sl.toNat, code := c.1, car := n.1, cls := k.1,
            grid := if m.getLsbD 4 then .remove else match g.1 with | some p => .give p | none => .keep }
      | none => none
    else none
  | _ => none

/-- The mask of an AMEND. -/
def AmendArgs.mask (a : AmendArgs) : Nat :=
  (if a.code.isSome then 1 else 0) + (if a.car.isSome then 2 else 0) + (if a.cls.isSome then 4 else 0) +
  (match a.grid with | .keep => 0 | .give _ => 8 | .remove => 16)

def AmendArgs.bytes (a : AmendArgs) : List Byte :=
  putFields ([(1, a.mask), (1, a.slot)] ++ (a.code.toList.map fun v => (3, v)) ++
    (a.car.toList.map fun v => (2, v)) ++ (a.cls.toList.map fun v => (1, v)) ++
    (match a.grid with | .give p => [(1, p)] | _ => []))

/-- One slot (RETIRE, REINSTATE, EXCLUDE, RELEASE). -/
def parseSlot (bs : List Byte) : Option Nat :=
  match takeFields [1] bs with
  | some [n] => checked slotOk n
  | _ => none

def slotBytes (n : Nat) : List Byte := putFields [(1, n)]

/-- ADJUST (R127). -/
def AdjustArgs.inRange (a : AdjustArgs) : Bool :=
  slotOk a.slot && decide (-255 ≤ a.laps) && decide (a.laps ≤ 255) && decide (a.penalty ≤ 4294967295)

def AdjustArgs.parse (bs : List Byte) : Option AdjustArgs :=
  match takeFields [1, 2, 4] bs with
  | some [n, d, t] => checked AdjustArgs.inRange { slot := n, laps := signedOf 2 d, penalty := t }
  | _ => none

def AdjustArgs.bytes (a : AdjustArgs) : List Byte :=
  putFields [(1, a.slot), (2, unsignedOf 2 a.laps), (4, a.penalty)]

/-- A choice given as 00h or 01h, 01h choosing it (R169, log 21). -/
def choiceOf (n : Nat) : Option Bool :=
  match n with
  | 0 => some false
  | 1 => some true
  | _ => none

def RecordName.inRange : RecordName → Bool
  | .slot n => slotOk n
  | .code n => codeOk n
  | .car n => carOk n

/-- READ RECORD: selector, the name's form, the clearing choice last (R67, R169). -/
def ReadRecordArgs.parse (bs : List Byte) : Option ReadRecordArgs :=
  let finish (name : Nat → RecordName) (v : Option (List Nat)) : Option ReadRecordArgs :=
    match v with
    | some [n, c] =>
      match choiceOf c with
      | some b => checked (fun a => a.who.inRange) { who := name n, clear := b }
      | none => none
    | _ => none
  match bs with
  | [] => none
  | sel :: rest =>
    if sel = 0x00#8 then finish .slot (takeFields [1, 1] rest)
    else if sel = 0x01#8 then finish .code (takeFields [3, 1] rest)
    else if sel = 0x02#8 then finish .car (takeFields [2, 1] rest)
    else none

def ReadRecordArgs.bytes (a : ReadRecordArgs) : List Byte :=
  let c := if a.clear then 1 else 0
  match a.who with
  | .slot n => 0x00#8 :: putFields [(1, n), (1, c)]
  | .code n => 0x01#8 :: putFields [(3, n), (1, c)]
  | .car n => 0x02#8 :: putFields [(2, n), (1, c)]

/-- SET CAPACITY (R60). -/
def parseCapacity (bs : List Byte) : Option Nat :=
  match takeFields [1] bs with
  | some [n] => checked slotOk n
  | _ => none

/-- DISMISS UNKNOWN: selector 00h and a code, or 01h for ALL, then the clearing choice (R76, R169). -/
def DismissArgs.parse (bs : List Byte) : Option DismissArgs :=
  match bs with
  | [] => none
  | sel :: rest =>
    if sel = 0x00#8 then
      match takeFields [3, 1] rest with
      | some [n, c] =>
        match choiceOf c with
        | some b => checked (fun a => a.code.all codeOk) { code := some n, clearFull := b }
        | none => none
      | _ => none
    else if sel = 0x01#8 then
      match takeFields [1] rest with
      | some [c] => (choiceOf c).map fun b => { code := none, clearFull := b }
      | _ => none
    else none

def DismissArgs.bytes (a : DismissArgs) : List Byte :=
  let c := if a.clearFull then 1 else 0
  match a.code with
  | some n => 0x00#8 :: putFields [(3, n), (1, c)]
  | none => 0x01#8 :: putFields [(1, c)]

/-- READ ORDER (R128). -/
def ReadOrderArgs.inRange (a : ReadOrderArgs) : Bool := within 1 a.first 128 && within 1 a.count 32

def ReadOrderArgs.parse (bs : List Byte) : Option ReadOrderArgs :=
  match takeFields [1, 1] bs with
  | some [p, n] => checked ReadOrderArgs.inRange { first := p, count := n }
  | _ => none

def ReadOrderArgs.bytes (a : ReadOrderArgs) : List Byte := putFields [(1, a.first), (1, a.count)]

/-- A lap limit only for a RACE, and a time limit always outside one (R130 step 1, R133). -/
def SessionSetup.consistent (a : SessionSetup) : Bool :=
  decide (a.type = .race) || (decide (a.lapLimit = 0) && decide (a.timeLimit ≠ 0))

/-- The ranges of R130. -/
def SessionSetup.inRange (a : SessionSetup) : Bool :=
  within 0 a.lapLimit 9999 && within 0 a.timeLimit 1440 && within 1 a.closeTimeout 60 &&
  within 1 a.echoGuard 60 && a.consistent

def SessionSetup.parse (bs : List Byte) : Option SessionSetup :=
  match takeFields [1, 2, 2, 1, 1, 1] bs with
  | some [ty, ll, tl, ct, eg, dd] =>
    match SessionType.all[ty]?, DeltaDirection.all[dd]? with
    | some t, some d =>
      checked SessionSetup.inRange
        { type := t, lapLimit := ll, timeLimit := tl, closeTimeout := ct, echoGuard := eg, delta := d }
    | _, _ => none
  | _ => none

def SessionSetup.bytes (a : SessionSetup) : List Byte :=
  putFields [(1, codeIn SessionType.all a.type), (2, a.lapLimit), (2, a.timeLimit), (1, a.closeTimeout),
    (1, a.echoGuard), (1, codeIn DeltaDirection.all a.delta)]

/-- The carry set as a mask: BESTS, GRID_FROM_ORDER, KEEP_EXCLUDED from bit 0 (R148, R169). -/
def CarrySet.code (c : CarrySet) : Nat :=
  (if c.bests then 1 else 0) + (if c.gridFromOrder then 2 else 0) + (if c.keepExcluded then 4 else 0)

def CarrySet.ofCode (n : Nat) : Option CarrySet :=
  if n < 8 then
    some { bests := n.testBit 0, gridFromOrder := n.testBit 1, keepExcluded := n.testBit 2 }
  else none

/-- ROLLOVER (R148). -/
def RolloverArgs.parse (bs : List Byte) : Option RolloverArgs :=
  match takeFields [1, 1] bs with
  | some [ty, cs] =>
    match SessionType.all[ty]?, CarrySet.ofCode cs with
    | some t, some c => some { type := t, carry := c }
    | _, _ => none
  | _ => none

def RolloverArgs.bytes (a : RolloverArgs) : List Byte :=
  putFields [(1, codeIn SessionType.all a.type), (1, a.carry.code)]

/-- SET MODERATION: 0 to 100 (R165). -/
def parseModeration (bs : List Byte) : Option Nat :=
  match takeFields [1] bs with
  | some [n] => checked (fun n => within 0 n 100) n
  | _ => none

/-! ## Selections (R156, R168) -/

/-- The command of a request of a kind with its argument bytes. -/
def RequestKind.command (k : RequestKind) (args : List Byte) : Instr :=
  match k with
  | .selectSource => .selectSource args
  | .readTime => .readTime args
  | .setLoop => .setLoop args
  | .setSector => .setSector args
  | .setPit => .setPit args
  | .readLoop => .readLoop args
  | .clearLoopFlags => .clearLoopFlags args
  | .enrol => .enrol args
  | .amend => .amend args
  | .retire => .retire args
  | .reinstate => .reinstate args
  | .exclude => .exclude args
  | .release => .release args
  | .adjust => .adjust args
  | .readRecord => .readRecord args
  | .setCapacity => .setCapacity args
  | .readUnknown => .readUnknown args
  | .dismissUnknown => .dismissUnknown args
  | .readOrder => .readOrder args
  | .sessionSetup => .sessionSetup args
  | .arm => .arm args
  | .green => .green args
  | .caution => .caution args
  | .clearCaution => .clearCaution args
  | .suspend => .suspend args
  | .resume => .resume args
  | .chequer => .chequer args
  | .close => .close args
  | .rollover => .rollover args
  | .haltRollover => .haltRollover args
  | .readSession => .readSession args
  | .readSummary => .readSummary args
  | .readChanges => .readChanges args
  | .acknowledge => .acknowledge args
  | .setModeration => .setModeration args
  | .resetTables => .resetTables args

/-- The kind and argument bytes of a command that is a request. -/
def Instr.request? : Instr → Option (RequestKind × List Byte)
  | .selectSource a => some (.selectSource, a)
  | .readTime a => some (.readTime, a)
  | .setLoop a => some (.setLoop, a)
  | .setSector a => some (.setSector, a)
  | .setPit a => some (.setPit, a)
  | .readLoop a => some (.readLoop, a)
  | .clearLoopFlags a => some (.clearLoopFlags, a)
  | .enrol a => some (.enrol, a)
  | .amend a => some (.amend, a)
  | .retire a => some (.retire, a)
  | .reinstate a => some (.reinstate, a)
  | .exclude a => some (.exclude, a)
  | .release a => some (.release, a)
  | .adjust a => some (.adjust, a)
  | .readRecord a => some (.readRecord, a)
  | .setCapacity a => some (.setCapacity, a)
  | .readUnknown a => some (.readUnknown, a)
  | .dismissUnknown a => some (.dismissUnknown, a)
  | .readOrder a => some (.readOrder, a)
  | .sessionSetup a => some (.sessionSetup, a)
  | .arm a => some (.arm, a)
  | .green a => some (.green, a)
  | .caution a => some (.caution, a)
  | .clearCaution a => some (.clearCaution, a)
  | .suspend a => some (.suspend, a)
  | .resume a => some (.resume, a)
  | .chequer a => some (.chequer, a)
  | .close a => some (.close, a)
  | .rollover a => some (.rollover, a)
  | .haltRollover a => some (.haltRollover, a)
  | .readSession a => some (.readSession, a)
  | .readSummary a => some (.readSummary, a)
  | .readChanges a => some (.readChanges, a)
  | .acknowledge a => some (.acknowledge, a)
  | .setModeration a => some (.setModeration, a)
  | .resetTables a => some (.resetTables, a)
  | .pinReset => none
  | .correctiveTick => none
  | .markIssue => none
  | .refEdge => none
  | .absenceExpiry => none
  | .startEdge => none
  | .framingGained _ => none
  | .framingLost _ => none
  | .hit _ _ _ _ _ => none
  | .echo _ _ => none
  | .noise _ _ => none
  | .invalidReport _ => none
  | .silenceExpiry _ => none
  | .closeExpiry _ _ => none
  | .guardRemoval _ _ => none
  | .timeLimitExpiry => none
  | .closeTimeoutExpiry => none
  | .moderationExpiry => none
  | .frameError _ => none
  | .unknownKind _ _ => none
  | .replySelection _ => none
  | .replyCompletion => none
  | .rolloverStep => none
  | .rawTick => none

/-- R156 step 1: the length byte, the byte count and the check byte of a request frame. -/
def frameSound (bs : List Byte) : Bool :=
  match bs with
  | _ :: len :: rest => decide (len.toNat ≤ 32) && decide (rest.length = len.toNat + 1) && decide (crc8 bs = 0#8)
  | _ => false

/-- The command a selection brings, from its whole bytes; a selection without a whole byte is ignored
(R156). The first byte FFh makes it a reply selection (R168). -/
def decodeSelection (bs : List Byte) : Option Instr :=
  match bs with
  | [] => none
  | k :: rest =>
    if k = 0xff#8 then some (.replySelection rest.length)
    else if frameSound bs then
      let args := (rest.drop 1).dropLast
      match RequestKind.ofCode k.toNat with
      | some kind => some (kind.command args)
      | none => some (.unknownKind k args)
    else some (.frameError bs.length)

/-- The request frame of a kind and its argument bytes (R168). -/
def requestFrame (k : RequestKind) (args : List Byte) : List Byte :=
  withCheck (BitVec.ofNat 8 k.code :: BitVec.ofNat 8 args.length :: args)

/-- The bytes of the selection that brings a request, where the command is one. -/
def encodeSelection (i : Instr) : Option (List Byte) :=
  i.request?.map fun q => requestFrame q.1 q.2

/-! ## Reports (R27, R170) -/

/-- The report a frame of data characters is; a run of delimiters holds none and is idle fill. -/
def decodeReport (l : LinkNo) (chars : List Byte) : Option Instr :=
  match chars with
  | [] => none
  | _ =>
    if crc8 chars = 0#8 then
      match chars with
      | [k, c2, c1, c0, m, o1, o0, st, _] =>
        if k = 0x01#8 ∧ codeOk (c2 ++ c1 ++ c0).toNat ∧ (o1 ++ o0).toNat ≤ 9999 then
          some (.hit l (c2 ++ c1 ++ c0) m (o1 ++ o0) st)
        else some (.invalidReport l)
      | [k, v, _] =>
        if k = 0x02#8 then some (.echo l v)
        else if k = 0x03#8 then some (.noise l v)
        else some (.invalidReport l)
      | _ => some (.invalidReport l)
    else some (.invalidReport l)

/-- The link and the data characters of a report (R170). -/
def encodeReport : Instr → Option (LinkNo × List Byte)
  | .hit l c m o st =>
    some (l, withCheck [0x01#8, c.extractLsb' 16 8, c.extractLsb' 8 8, c.extractLsb' 0 8, m,
      o.extractLsb' 8 8, o.extractLsb' 0 8, st])
  | .echo l m => some (l, withCheck [0x02#8, m])
  | .noise l v => some (l, withCheck [0x03#8, v])
  | _ => none

/-! ## The characters of a link (R170) -/

/-- The delimiter, the control character 7Eh. -/
def delimiter : LinkChar := 0x17e#9

/-- A data character: its control mark is clear. -/
def dataChar (b : Byte) : LinkChar := 0#1 ++ b

/-- The byte of a data character. -/
def dataOf (c : LinkChar) : Option Byte := if c.getLsbD 8 then none else some (c.setWidth 8)

/-- A frame as it goes out: the delimiter that begins it, then its data characters; idle fill ends it. -/
def frameChars (chars : List Byte) : List LinkChar := delimiter :: chars.map dataChar

/-- The downstream frame of a mark. -/
def markFrame (mark : Nat) : List LinkChar := frameChars (withCheck [0x10#8, BitVec.ofNat 8 mark])

/-- Where a link stands between two characters of its upstream line (R23, R170): framing; while it is lost, whether a
delimiter in step stands before; while it is present, the data characters since the last delimiter, none before the
first delimiter after framing was gained. -/
structure LineReader where
  framed : Bool
  seen   : Bool
  frame  : Option (List Byte)
  deriving DecidableEq, Repr

/-- A link whose framing is lost: a report partly received is dropped (R23). -/
def LineReader.lost : LineReader := { framed := false, seen := false, frame := none }

/-- What the delimiter that ends a frame brings: its report, or for idle fill and ignored data the delimiter alone,
which FRAMING_GAINED stands for while framing is present (log 12). -/
def frameCommand (l : LinkNo) (frame : Option (List Byte)) : Instr :=
  (decodeReport l (frame.getD [])).getD (.framingGained l)

/-- One character of the upstream line of a link, and the commands it brings (R23, R170, log 30). -/
def LineReader.take (r : LineReader) (l : LinkNo) (c : LinkChar) : LineReader × List Instr :=
  if c = delimiter then
    if r.framed then ({ r with frame := some [] }, [frameCommand l r.frame])
    else if r.seen then ({ framed := true, seen := false, frame := none }, [.framingGained l])
    else ({ r with seen := true }, [])
  else
    match dataOf c with
    | some b => ({ r with frame := r.frame.map fun bs => bs ++ [b] }, [])
    | none => ({ r with seen := false }, [])

/-- A stretch of the upstream line. -/
def LineReader.takeAll (r : LineReader) (l : LinkNo) : List LinkChar → LineReader × List Instr
  | [] => (r, [])
  | c :: cs =>
    let a := r.take l c
    let b := a.1.takeAll l cs
    (b.1, a.2 ++ b.2)

/-! ## The table's words -/

/-- The command a word of the table's bits spells: no row of the table gives bits. -/
def decodeTableWord (_nbits _w : Nat) : Option Instr := none

end Sys2Proof
end

