-- ==== Sys2Proof/Machine/State.lean ====
section
/-! DEFINITION. The state of the LT8 as plain data, block by block as 00_scope.md 1.3 divides it, the
reasons a step can stop, and the state after pin reset. -/

namespace Sys2Proof.Machine

/-- A table by key, keys strictly rising: records by slot, the transponder index by code, the lead table
by entry number, an open passing table by code. -/
abbrev KeyMap (α : Type) := List (Nat × α)

/-! ## Time base (01) -/

/-- The last REF interval measured, with its verdict (R7). -/
structure Interval where
  ticks   : Nat
  verdict : Verdict
  deriving DecidableEq, Repr

/-- 01, table of state. `absence` counts while the monitor is not ABSENT (R9). -/
structure TimeBase where
  now          : Nat
  mark         : Nat
  markLimit    : Bool
  source       : Source
  mode         : Mode
  trim         : Int
  trimCount    : Nat
  monitor      : Monitor
  goodCount    : Nat
  lastInterval : Option Interval
  lastEdge     : Option Nat
  absence      : Nat
  deriving DecidableEq, Repr

/-! ## Loop links and their open passing tables (02, 03) -/

/-- A period with a start and, once it has ended, an end: a link's outage (R26), the session's
suspension (R137). -/
structure Period where
  start : Nat
  stop  : Option Nat
  deriving DecidableEq, Repr

/-- An OPEN entry: a passing still gathering hits (R38, R39). -/
structure OpenPassing where
  first     : Nat
  last      : Nat
  count     : Nat
  weight    : Nat
  moment    : Nat
  saturated : Bool
  expiry    : Nat
  deriving DecidableEq, Repr

/-- A GUARD entry: it absorbs the hits of a stalled car (R40, R41). -/
structure GuardEntry where
  lastAbsorbed : Nat
  expiry       : Nat
  deriving DecidableEq, Repr

/-- An entry of an open passing table (R36). -/
inductive Entry where
  | passing (p : OpenPassing)
  | guard (g : GuardEntry)
  deriving DecidableEq, Repr

/-- 02, "State held per link", with the link's open passing table (R36). `downstream` is the latest mark
frame sent on the link's LKD pin (R4, R170), empty before the first: the model's own field, log 23. `framing` is
present while framing is, and holds the expiry that each delimiter moves on (R23). -/
structure Link where
  role          : Role
  linePos       : Option Nat
  settings      : LinkSettings
  framing       : Option Nat
  state         : LinkState
  silenceExpiry : Option Nat
  outage        : Option Period
  latestHit     : Option Nat
  noise         : Option Nat
  flags         : Mask 10
  passings      : KeyMap Entry
  downstream    : List LinkChar
  deriving DecidableEq, Repr

/-- The circuit settings held by the loop link block (02; R21, R22). -/
structure Circuit where
  sectorMin : Vector Nat 8
  pit       : Option PitSettings
  deriving DecidableEq, Repr

/-! ## Competitor table (04) -/

/-- An entry of the current or last lap's sectors (R55). A time of 4,294,967,295 is over-range (R84). -/
inductive SectorEntry where
  | timed (t : Nat)
  | pending | missed | excused | bypassed | untimed
  deriving DecidableEq, Repr

/-- The time of the last lap, or why it is absent (R88). -/
inductive LapTime where
  | timed (t : Nat)
  | unseen | untimed
  deriving DecidableEq, Repr

/-- The last lap (R88). -/
structure LastLap where
  number  : Nat
  time    : LapTime
  flags   : Mask 4
  sectors : List SectorEntry
  deriving DecidableEq, Repr

/-- The best lap (R94). -/
structure BestLap where
  time    : Nat
  number  : Nat
  setTime : Nat
  sectors : List (Option Nat)
  deriving DecidableEq, Repr

/-- A gap (R125). -/
inductive Gap where
  | time (t : Nat)
  | lapsDown (n : Nat)
  deriving DecidableEq, Repr

/-- The pit record (R104). -/
structure PitRecord where
  entry    : Option Nat
  exit     : Option Nat
  transit  : Option Nat
  speed    : Option Nat
  speeding : Bool
  isOpen   : Bool
  deriving DecidableEq, Repr

/-- The last sighting (R69). -/
structure Sighting where
  link    : LinkNo
  time    : Nat
  quality : Quality
  deriving DecidableEq, Repr

/-- The last rejection (R72). -/
structure Rejection where
  link   : LinkNo
  time   : Nat
  reason : Reason
  deriving DecidableEq, Repr

/-- A competitor record (04, 4.1): identity, standing and bests regions. A FREE slot holds none (log 15). -/
structure Record where
  code        : Nat
  car         : Nat
  cls         : Nat
  grid        : Option Nat
  session     : Nat
  state       : RecState
  retiredFrom : Option RecState
  laps        : Nat
  started     : Bool
  lapStart    : Option Nat
  lastPos     : Option Nat
  lastTime    : Option Nat
  latest      : Option Nat
  lapFlags    : Mask 4
  sectors     : List SectorEntry
  lastLap     : Option LastLap
  delta       : Option Int
  gap         : Option Gap
  position    : Option Nat
  elapsed     : Option Nat
  finish      : Option Nat
  penalty     : Nat
  netAdjust   : Int
  pitStops    : Nat
  pit         : Option PitRecord
  sighting    : Option Sighting
  rejection   : Option Rejection
  notices     : Mask 7
  bestLap     : Option BestLap
  bestSectors : List (Option Nat)
  deriving DecidableEq, Repr

/-- An entry of the unknown list (R75). -/
structure UnknownEntry where
  code      : Nat
  first     : Nat
  last      : Nat
  link      : LinkNo
  sightings : Nat
  deriving DecidableEq, Repr

/-- The competitor table, the transponder index (code to slot, R58) and the unknown list (R75). -/
structure CompetitorTable where
  records     : KeyMap Record
  index       : KeyMap Nat
  unknown     : List UnknownEntry
  unknownFull : Bool
  slotLimit   : Nat
  deriving DecidableEq, Repr

/-! ## Running order (07) -/

/-- A point of the race in the lead table: its crossing index and the time it was first reached (R124). -/
structure LeadPoint where
  index : Nat
  time  : Nat
  deriving DecidableEq, Repr

/-- The order list of slots (R116), the lead table by entry number and the highest index H (R123). -/
structure OrderBlock where
  list    : List Nat
  lead    : KeyMap LeadPoint
  highest : Option Nat
  deriving DecidableEq, Repr

/-! ## Session controller (08, 09) -/

/-- The rollover cursor (9.1). -/
structure Cursor where
  phase    : RollPhase
  carry    : CarrySet
  newType  : SessionType
  nextGrid : Nat
  steps    : Nat
  lastSlot : Option Nat
  deriving DecidableEq, Repr

/-- 08, 8.1. -/
structure Session where
  phase           : Phase
  setup           : Option SessionSetup
  number          : Nat
  incomplete      : Bool
  finishPending   : Bool
  locked          : Bool
  greenTime       : Option Nat
  greenSource     : Option GreenSource
  totalSuspended  : Nat
  suspension      : Option Period
  resumeState     : Option Phase
  timeLimitExpiry : Option Nat
  chequerTime     : Option Nat
  chequerCause    : Option ChequerCause
  chequerSlot     : Option Nat
  closeExpiry     : Option Nat
  cursor          : Option Cursor
  deriving DecidableEq, Repr

/-! ## Reporting unit (10) -/

/-- The phase of the request port (10, table of state). -/
inductive PortPhase where
  | idle | receiving | sending
  deriving DecidableEq, Repr

/-- The reply buffer (R157). -/
inductive Buffer where
  | empty | pending | ready
  deriving DecidableEq, Repr

/-- A reply (R158). -/
structure Reply where
  kind     : Option RequestKind
  result   : Result
  replaced : Bool
  overrun  : Bool
  body     : List Byte
  deriving DecidableEq, Repr

/-- 10, table of state. `changed` holds slots in ascending order; `sdo` holds the bytes the latest
selection shifted out (the model's own field, log 23). -/
structure Reporting where
  portPhase        : PortPhase
  buffer           : Buffer
  reply            : Option Reply
  readFlag         : Bool
  changed          : List Nat
  causes           : Mask 6
  latch            : Bool
  moderation       : Nat
  moderationExpiry : Option Nat
  sdo              : List Byte
  deriving DecidableEq, Repr

/-! ## The machine -/

/-- The whole part, with the queue of waiting commands and the model's counter of free draws (log 7). -/
structure State where
  time      : TimeBase
  links     : Vector Link 8
  circuit   : Circuit
  table     : CompetitorTable
  order     : OrderBlock
  session   : Session
  report    : Reporting
  freeDraws : Nat
  pending   : List Instr
  deriving DecidableEq, Repr

/-- Why a step could fault. The spec stops the part nowhere, so there is no reason (NOTES.md, Stops). -/
inductive Fault where
  deriving DecidableEq, Repr

/-- Why a step could be refused. -/
inductive Refusal where
  /-- Raised only by an arm of `exec` whose command has no meaning yet; safe, since nothing is claimed of it.
  Every command has its meaning, so no arm raises it. -/
  | notModelled (mnemonic : String)
  deriving DecidableEq, Repr

/-- What a step answers. -/
abbrev Out := Host.Outcome State Fault Refusal

/-! ## Reset values -/

/-- 01, "State after reset". -/
def TimeBase.reset : TimeBase :=
  { now := 0, mark := 0, markLimit := false, source := .internal, mode := .free, trim := 0, trimCount := 0,
    monitor := .absent, goodCount := 0, lastInterval := none, lastEdge := none, absence := 0 }

/-- The default settings (02, Settings). -/
def LinkSettings.default : LinkSettings :=
  { latency := 0, threshold := 32, saturation := 224, closeGap := 60, maxDwell := 2000, minHits := 2,
    maxAge := 50, silence := 500, liveness := .mark }

/-- A link after pin reset (R35). -/
def Link.reset : Link :=
  { role := .off, linePos := none, settings := LinkSettings.default, framing := none, state := .off,
    silenceExpiry := none, outage := none, latestHit := none, noise := none, flags := 0, passings := [],
    downstream := [] }

/-- The circuit settings after pin reset (R35). -/
def Circuit.reset : Circuit := { sectorMin := #v[0, 0, 0, 0, 0, 0, 0, 0], pit := none }

/-- The competitor table after either reset (R78). -/
def CompetitorTable.reset : CompetitorTable :=
  { records := [], index := [], unknown := [], unknownFull := false, slotLimit := 128 }

/-- The running order block after either reset (R116, R123). -/
def OrderBlock.reset : OrderBlock := { list := [], lead := [], highest := none }

/-- The session controller after either reset (R147). -/
def Session.reset : Session :=
  { phase := .idle, setup := none, number := 0, incomplete := false, finishPending := false, locked := false,
    greenTime := none, greenSource := none, totalSuspended := 0, suspension := none, resumeState := none,
    timeLimitExpiry := none, chequerTime := none, chequerCause := none, chequerSlot := none,
    closeExpiry := none, cursor := none }

/-- The reporting unit after pin reset (R167). -/
def Reporting.reset : Reporting :=
  { portPhase := .idle, buffer := .empty, reply := none, readFlag := false, changed := [], causes := 0,
    latch := false, moderation := 2, moderationExpiry := none, sdo := [] }

/-- The part right after pin reset (R1, R35, R51, R78, R116, R123, R147, R155, R167). -/
def State.reset : State :=
  { time := TimeBase.reset,
    links := #v[Link.reset, Link.reset, Link.reset, Link.reset, Link.reset, Link.reset, Link.reset, Link.reset],
    circuit := Circuit.reset, table := CompetitorTable.reset, order := OrderBlock.reset,
    session := Session.reset, report := Reporting.reset, freeDraws := 0, pending := [] }

end Sys2Proof.Machine
end

