-- ==== Sys2Proof/Machine/Flags.lean ====
section
/-! DEFINITION. Sets held as masks (loop flags, lap flags, notices, causes) and the attention latch. -/

namespace Sys2Proof.Machine

/-! ## Masks (R169: one bit per member, from bit 0) -/

/-- The mask that holds one member. -/
def oneOf (n i : Nat) : Mask n := BitVec.twoPow n i

/-- A set with a member added. -/
def addBit {n : Nat} (m : Mask n) (i : Nat) : Mask n := m ||| oneOf n i

/-- A set with a member removed. -/
def dropBit {n : Nat} (m : Mask n) (i : Nat) : Mask n := m &&& ~~~ oneOf n i

/-- Membership. -/
def hasBit {n : Nat} (m : Mask n) (i : Nat) : Bool := m.getLsbD i

def hasFlag (m : Mask 10) (f : LoopFlag) : Bool := hasBit m (codeIn LoopFlag.all f)
def addFlag (m : Mask 10) (f : LoopFlag) : Mask 10 := addBit m (codeIn LoopFlag.all f)

def hasLap (m : Mask 4) (f : LapFlag) : Bool := hasBit m (codeIn LapFlag.all f)
def addLap (m : Mask 4) (f : LapFlag) : Mask 4 := addBit m (codeIn LapFlag.all f)
def dropLap (m : Mask 4) (f : LapFlag) : Mask 4 := dropBit m (codeIn LapFlag.all f)

def hasNotice (m : Mask 7) (f : Notice) : Bool := hasBit m (codeIn Notice.all f)
def addNotice (m : Mask 7) (f : Notice) : Mask 7 := addBit m (codeIn Notice.all f)

def hasCause (m : Mask 6) (c : Cause) : Bool := hasBit m (codeIn Cause.all c)
def addCause (m : Mask 6) (c : Cause) : Mask 6 := addBit m (codeIn Cause.all c)
def dropCause (m : Mask 6) (c : Cause) : Mask 6 := dropBit m (codeIn Cause.all c)

/-! ## The changed-slot set (R159) -/

/-- A slot joined to the set, kept in ascending order without duplicates. -/
def joinSlot (slot : Nat) : List Nat → List Nat
  | [] => [slot]
  | x :: xs => if slot < x then slot :: x :: xs else if slot = x then x :: xs else x :: joinSlot slot xs

/-! ## Causes and attention (R161, R163) -/

/-- A cause joins the set (R161). -/
def State.raise (s : State) (c : Cause) : State :=
  { s with report := { s.report with causes := addCause s.report.causes c } }

/-- A slot joins the changed-slot set (R74, R159). -/
def State.markChanged (s : State) (slot : Nat) : State :=
  { s with report := { s.report with changed := joinSlot slot s.report.changed } }

/-- RECORDS is pending exactly while the changed-slot set is not empty (R161). -/
def Reporting.syncRecords (r : Reporting) : Reporting :=
  { r with causes := if r.changed.isEmpty then dropCause r.causes .records else addCause r.causes .records }

/-- The latch in any event after which the cause set is empty, or is not empty with the timer stopped (R163). -/
def Reporting.settleLatch (r : Reporting) : Reporting :=
  if r.causes = 0#6 then { r with latch := false }
  else if r.moderationExpiry.isNone then { r with latch := true } else r

/-- What the reporting unit does at the end of every event (R161, R163). -/
def State.settleAttention (s : State) : State := { s with report := s.report.syncRecords.settleLatch }

/-- The level of the ATTN pin: it follows the latch without delay (R163). -/
def State.attn (s : State) : Bool := s.report.latch

end Sys2Proof.Machine
end

