-- ==== Sys2Proof/Machine/Ops.lean ====
section
/-! DEFINITION. The named operations over the tables: keyed maps, links and their flags, records and the
changed-slot duty, the line map, expiries. -/

namespace Sys2Proof.Machine

/-! ## Keyed maps -/

/-- The value at a key. -/
def KeyMap.find {α : Type} (m : KeyMap α) (k : Nat) : Option α :=
  match m with
  | [] => none
  | (j, a) :: rest => if j = k then some a else KeyMap.find rest k

/-- The map with a value at a key, in key order. -/
def KeyMap.put {α : Type} (m : KeyMap α) (k : Nat) (a : α) : KeyMap α :=
  match m with
  | [] => [(k, a)]
  | (j, b) :: rest =>
    if k < j then (k, a) :: (j, b) :: rest
    else if k = j then (k, a) :: rest
    else (j, b) :: KeyMap.put rest k a

/-- The map without a key. -/
def KeyMap.remove {α : Type} (m : KeyMap α) (k : Nat) : KeyMap α :=
  match m with
  | [] => []
  | (j, b) :: rest => if j = k then rest else (j, b) :: KeyMap.remove rest k

/-- The map with every value changed in place. -/
def KeyMap.mapVals {α : Type} (f : Nat → α → α) (m : KeyMap α) : KeyMap α :=
  m.map fun p => (p.1, f p.1 p.2)

/-- The canonical form: keys strictly rising. -/
abbrev KeyMap.wf {α : Type} (m : KeyMap α) : Prop := (m.map Prod.fst).Pairwise (· < ·)

/-! ## Time and expiries (R1, R2) -/

/-- Circuit time as it stands (R1). -/
def State.now (s : State) : Nat := s.time.now

/-- An expiry that is present and whose instant circuit time has reached (R2). -/
def reached (now : Nat) (expiry : Option Nat) : Bool :=
  match expiry with
  | some e => decide (e ≤ now)
  | none => false

/-- A time longer than 4,294,967,294 is stored as 4,294,967,295, which carries the over-range mark (R84). -/
def store32 (d : Nat) : Nat := min d Config.topTime

/-- The over-range mark of a stored time (R84). -/
def overRange (t : Nat) : Bool := decide (t = Config.topTime)

/-! ## Links -/

/-- A link by its number. -/
def State.link (s : State) (l : LinkNo) : Link := s.links[l]

/-- The part with one link changed. -/
def State.setLink (s : State) (l : LinkNo) (k : Link) : State := { s with links := s.links.set l k }

/-- Every link changed in place. -/
def mapLinks (f : Link → Link) (v : Vector Link 8) : Vector Link 8 :=
  #v[f v[0], f v[1], f v[2], f v[3], f v[4], f v[5], f v[6], f v[7]]

/-- The links with their numbers, from 0. -/
def State.linkList (s : State) : List (LinkNo × Link) :=
  [(0, s.links[0]), (1, s.links[1]), (2, s.links[2]), (3, s.links[3]),
   (4, s.links[4]), (5, s.links[5]), (6, s.links[6]), (7, s.links[7])]

/-- Framing is present (R23). -/
def Link.framed (k : Link) : Bool := k.framing.isSome

/-- A loop flag is set; going from clear to set it raises LOOPS (R32). -/
def State.setLoopFlag (s : State) (l : LinkNo) (f : LoopFlag) : State :=
  if hasFlag (s.link l).flags f then s
  else (s.setLink l { s.link l with flags := addFlag (s.link l).flags f }).raise .loops

/-! ## The line map (R15) -/

/-- The line position a link holds in the line map. -/
def Link.held (k : Link) : Option Nat := if k.role = .line then k.linePos else none

/-- The positions held by the LINE links, link by link. -/
def State.heldPositions (s : State) : List Nat := s.linkList.filterMap fun p => p.2.held

/-- L: one more than the highest position held, and 1 while no link is LINE (R15). -/
def State.lineCount (s : State) : Nat := (s.heldPositions.map (· + 1)).foldl max 1

/-- The line map is valid (R15). -/
def State.lineMapValid (s : State) : Bool :=
  !s.heldPositions.isEmpty && (List.range s.lineCount).all fun p => s.heldPositions.count p == 1

/-- A pit link exists (R15). -/
def State.hasPitLink (s : State) : Bool :=
  s.linkList.any fun p => decide (p.2.role = .pitIn) || decide (p.2.role = .pitOut)

/-- The pit settings are valid where pit links exist; where none exists they are not examined (R15). -/
def State.pitValid (s : State) : Bool :=
  !s.hasPitLink ||
  match s.circuit.pit with
  | some c => decide (c.inAfter < s.lineCount) && decide (c.outBefore < s.lineCount)
  | none => false

/-- The link that holds a line position (R85). -/
def State.linkAt (s : State) (p : Nat) : Option Link :=
  (s.linkList.find? fun q => decide (q.2.held = some p)).map (·.2)

/-! ## Records -/

/-- The record in a slot; none is FREE. -/
def State.record? (s : State) (slot : Nat) : Option Record := s.table.records.find slot

/-- The part with another records table. -/
def State.setRecords (s : State) (m : KeyMap Record) : State := { s with table := { s.table with records := m } }

/-- A record is written. The slot joins the changed-slot set when a field changes (R74). -/
def State.putRecord (s : State) (slot : Nat) (r : Record) : State :=
  if s.record? slot = some r then s else (s.setRecords (s.table.records.put slot r)).markChanged slot

/-- A record changed by a function; a FREE slot stays as it is. -/
def State.updRecord (s : State) (slot : Nat) (f : Record → Record) : State :=
  match s.record? slot with
  | some r => s.putRecord slot (f r)
  | none => s

/-- Every record changed in place, each changed slot joining the changed-slot set (R74). -/
def State.updAll (s : State) (f : Nat → Record → Record) : State :=
  let s' := s.setRecords (s.table.records.mapVals f)
  (s.table.records.filter fun p => decide (f p.1 p.2 ≠ p.2)).foldl (fun t p => t.markChanged p.1) s'

/-- The slot becomes FREE (R66, R74). -/
def State.freeSlot (s : State) (slot : Nat) : State :=
  (s.setRecords (s.table.records.remove slot)).markChanged slot

/-- The transponder index written (R58). -/
def State.setIndex (s : State) (m : KeyMap Nat) : State := { s with table := { s.table with index := m } }

/-- The unknown list written (R75). -/
def State.setUnknown (s : State) (u : List UnknownEntry) : State := { s with table := { s.table with unknown := u } }

/-- A record holds a code (R61). -/
def State.codeHeldBy (s : State) (code : Nat) : Option Nat :=
  (s.table.records.find? fun p => decide (p.2.code = code)).map (·.1)

/-- A record holds a car number (R61). -/
def State.carHeldBy (s : State) (car : Nat) : Option Nat :=
  (s.table.records.find? fun p => decide (p.2.car = car)).map (·.1)

/-- How many records are in a state (R145). -/
def State.countIn (s : State) (st : RecState) : Nat :=
  (s.table.records.filter fun p => decide (p.2.state = st)).length

/-- A passing is rejected: the last rejection and the notice REJECTED (R72). -/
def Record.reject (r : Record) (l : LinkNo) (t : Nat) (why : Reason) : Record :=
  { r with rejection := some { link := l, time := t, reason := why }, notices := addNotice r.notices .rejected }

def State.reject (s : State) (slot : Nat) (l : LinkNo) (t : Nat) (why : Reason) : State :=
  s.updRecord slot fun r => r.reject l t why

/-! ## Standing and bests regions (R54, R55, R56) -/

/-- The current sectors of a lap that has just begun. -/
def pendingSectors (n : Nat) : List SectorEntry := List.replicate n .pending

/-- Sectors `lo` to `hi - 1` written with one entry; `i` is the sector the list begins at. -/
def paintFrom (i lo hi : Nat) (e : SectorEntry) : List SectorEntry → List SectorEntry
  | [] => []
  | x :: xs => (if lo ≤ i ∧ i < hi then e else x) :: paintFrom (i + 1) lo hi e xs

/-- Sectors `lo` to `hi - 1` of a lap written with one entry. -/
def paint (xs : List SectorEntry) (lo hi : Nat) (e : SectorEntry) : List SectorEntry := paintFrom 0 lo hi e xs

/-- The standing region reset to a state, with L sectors (R54). -/
def Record.resetStanding (r : Record) (st : RecState) (n : Nat) : Record :=
  { r with
    state := st, retiredFrom := none, laps := 0, started := false, lapStart := none, lastPos := none,
    lastTime := none, latest := none, lapFlags := 0, sectors := pendingSectors n, lastLap := none,
    delta := none, gap := none, position := none, elapsed := none, finish := none, penalty := 0,
    netAdjust := 0, pitStops := 0, pit := none, sighting := none, rejection := none, notices := 0 }

/-- The bests region of a new record (R56). -/
def Record.resetBests (r : Record) (n : Nat) : Record :=
  { r with bestLap := none, bestSectors := List.replicate n none }

/-- A new record (R61). -/
def newRecord (a : EnrolArgs) (session n : Nat) : Record :=
  { code := a.code, car := a.car, cls := a.cls, grid := a.grid, session := session,
    state := .enrolled, retiredFrom := none, laps := 0, started := false, lapStart := none, lastPos := none,
    lastTime := none, latest := none, lapFlags := 0, sectors := pendingSectors n, lastLap := none,
    delta := none, gap := none, position := none, elapsed := none, finish := none, penalty := 0,
    netAdjust := 0, pitStops := 0, pit := none, sighting := none, rejection := none, notices := 0,
    bestLap := none, bestSectors := List.replicate n none }

/-! ## Passing tables -/

/-- The open passing table of a link written. -/
def State.setPassings (s : State) (l : LinkNo) (m : KeyMap Entry) : State :=
  s.setLink l { s.link l with passings := m }

end Sys2Proof.Machine
end

