-- ==== Sys2Proof/Machine/Order.lean ====
section
/-! DEFINITION. The running order block (07): keys, the order list, crossings, the lead table and gaps. -/

namespace Sys2Proof.Machine

/-! ## Keys (R117, R118) -/

/-- The state is one of those in the running order (04, 4.2). -/
def stateInOrder (st : RecState) : Bool :=
  decide (st = .running) || decide (st = .pit) || decide (st = .finished)

/-- Progress round the lap (R117). -/
def Record.progress (r : Record) : Nat :=
  if r.started then (match r.lastPos with | some p => p + 1 | none => 0) else 0

/-- The key time (R117). -/
def Record.keyTime (r : Record) : Nat :=
  if r.state = .finished then (r.finish.getD (r.latest.getD 0)) + r.penalty else r.latest.getD 0

/-- The RACE key: at the first item on which two keys differ the lower stands ahead (R117). -/
def Record.raceKey (r : Record) (slot : Nat) : List Int :=
  [-(r.laps : Int), -(r.progress : Int), (r.keyTime : Int), (slot : Int)]

/-- The PRACTICE and QUALIFYING key (R118); the best-lap items of records without one are equal. -/
def Record.bestKey (r : Record) (slot : Nat) : List Int :=
  match r.bestLap with
  | some b => [0, (b.time : Int), (b.setTime : Int), -(r.laps : Int), (slot : Int)]
  | none => [1, 0, 0, -(r.laps : Int), (slot : Int)]

/-- The session type whose key is in use; RACE while no setup exists (R118). -/
def State.keyType (s : State) : SessionType :=
  match s.session.setup with
  | some c => c.type
  | none => .race

/-- The key of a record under a session type. -/
def Record.orderKey (r : Record) (ty : SessionType) (slot : Nat) : List Int :=
  if ty = .race then r.raceKey slot else r.bestKey slot

/-- Comparison item by item (R117, R118). -/
def lexLe : List Int → List Int → Bool
  | [], _ => true
  | _ :: _, [] => false
  | a :: as, b :: bs => decide (a < b) || (decide (a = b) && lexLe as bs)

/-! ## The order list (R116, R119 to R122) -/

/-- The records that belong in the list, with their keys. -/
def orderEntries (ty : SessionType) (m : KeyMap Record) : List (List Int × Nat) :=
  (m.filter fun p => stateInOrder p.2.state).map fun p => (p.2.orderKey ty p.1, p.1)

/-- The list the keys alone fix (R116). -/
def orderOf (ty : SessionType) (m : KeyMap Record) : List Nat :=
  ((orderEntries ty m).insertionSort fun a b => lexLe a.1 b.1 = true).map (·.2)

/-- The place of a slot in a list, counted from `n`. -/
def placeFrom (n slot : Nat) : List Nat → Option Nat
  | [] => none
  | x :: xs => if x = slot then some n else placeFrom (n + 1) slot xs

/-- The order position of a slot: its place in the list, from 1 (R116). -/
def placeOf (list : List Nat) (slot : Nat) : Option Nat := placeFrom 1 slot list

/-- A record takes its place. A changed position adds POSITION (R120); outside the list the gap is absent
(R119, R125). -/
def Record.takePlace (r : Record) (place : Option Nat) : Record :=
  { r with
    position := place,
    notices := if r.position = place then r.notices else addNotice r.notices .position,
    gap := if place.isNone then none else r.gap }

/-- The order list is brought to the keys: joins, removals and moves alike (R116, R119, R120, R122). ORDER is
raised when a position changes (R121). -/
def State.reorder (s : State) : State :=
  let list := orderOf s.keyType s.table.records
  let moved := s.table.records.any fun p => decide (p.2.position ≠ placeOf list p.1)
  let s' := s.updAll fun slot r => r.takePlace (placeOf list slot)
  let s' := { s' with order := { s'.order with list := list } }
  if moved || decide (list ≠ s.order.list) then s'.raise .order else s'

/-! ## Crossings and the lead table (R123 to R125) -/

/-- What a crossing makes of the lead table: the new point where the entry changes, H, and the gap. -/
structure LeadResult where
  point   : Option LeadPoint
  highest : Option Nat
  gap     : Gap
  deriving DecidableEq, Repr

/-- H after an entry becomes `c`: `c` when H is absent or lower than `c` (R124). -/
def raiseHighest (highest : Option Nat) (c : Nat) : Option Nat :=
  match highest with
  | none => some c
  | some h => if h < c then some c else some h

/-- The four rows of R124, for a crossing of index `c` at time `t`, from the entry at `c mod 128` and H. -/
def leadOutcome (point : Option LeadPoint) (highest : Option Nat) (lines c t : Nat) : LeadResult :=
  let first : LeadResult :=
    { point := some { index := c, time := t }, highest := raiseHighest highest c, gap := .time 0 }
  match point with
  | none => first
  | some e =>
    if e.index < c then first
    else if e.index = c then
      if e.time ≤ t then { point := none, highest := highest, gap := .time (t - e.time) }
      else { point := some { index := c, time := t }, highest := highest, gap := .time 0 }
    else { point := none, highest := highest, gap := .lapsDown ((highest.getD 0 - c) / lines) }

/-- The crossing index of a record (R124). -/
def Record.crossingIndex (r : Record) (lines : Nat) : Nat := r.laps * lines + r.progress

/-- What a crossing of index `c` at time `t` makes of the block as it stands (R124). -/
def OrderBlock.outcome (o : OrderBlock) (lines c t : Nat) : LeadResult :=
  leadOutcome (o.lead.find (c % Config.leadSize)) o.highest lines c t

/-- The lead table and H after a crossing (R124). -/
def OrderBlock.take (o : OrderBlock) (lines c t : Nat) : OrderBlock :=
  let res := o.outcome lines c t
  match res.point with
  | some p => { o with lead := o.lead.put (c % Config.leadSize) p, highest := res.highest }
  | none => o

/-- A crossing is taken: the record is re-keyed, then the lead table and the gap, where started (R124). -/
def State.crossing (s : State) (slot t : Nat) : State :=
  let s := s.reorder
  match s.record? slot with
  | none => s
  | some r =>
    if r.started then
      let c := r.crossingIndex s.lineCount
      let g := (s.order.outcome s.lineCount c t).gap
      ({ s with order := s.order.take s.lineCount c t }).putRecord slot { r with gap := some g }
    else s

/-- The lead table and H are emptied (R123). -/
def State.emptyLead (s : State) : State := { s with order := { s.order with lead := [], highest := none } }

end Sys2Proof.Machine
end

