-- ==== Sys2Proof/Machine/Events.lean ====
section
/-! DEFINITION. What every event ends with, and the session controller's own events that other blocks bring
about: the chequer and the close (R132, R139 to R142). -/

namespace Sys2Proof.Machine

/-- The items of the READ SESSION reply but circuit time (R132, R145): the controller's state, the number of
records in RUNNING and the number in PIT (log 16). -/
def State.sessionItems (s : State) : Session × Nat × Nat :=
  (s.session, s.countIn .running, s.countIn .pit)

/-- SESSION is raised once by an event that changes an item of the READ SESSION reply (R132). -/
def raiseSession (before after : State) : State :=
  if after.sessionItems = before.sessionItems then after else after.raise .session

/-- The end of an event: the order list agrees with the records (R57, R116, log 17), SESSION is raised where
due (R132), and the reporting unit settles RECORDS and the latch (R161, R163). -/
def closeEvent (before after : State) : State := (raiseSession before after.reorder).settleAttention

/-- The session controller's state written. -/
def State.setSession (s : State) (c : Session) : State := { s with session := c }

/-- A record with its state changed and nothing else. -/
def Record.become (r : Record) (st : RecState) : Record := { r with state := st }

/-! ## Ending a session (R142) -/

/-- CLOSED: the close-timeout expiry absent, the lock released (R142, R144). -/
def State.closeSession (s : State) : State :=
  s.setSession { s.session with phase := .closed, closeExpiry := none, locked := false }

/-- No record is in RUNNING or PIT. -/
def State.fieldEmpty (s : State) : Bool := decide (s.countIn .running = 0) && decide (s.countIn .pit = 0)

/-- While CHEQUERED, the session closes when no record is in RUNNING or PIT (R142, Field in). -/
def State.fieldIn (s : State) : State :=
  if s.session.phase = .chequered ∧ s.fieldEmpty then s.closeSession else s

/-! ## The chequer (R139 to R141) -/

/-- Close timeout in microseconds (R130). -/
def State.closeTimeout (s : State) : Nat :=
  match s.session.setup with
  | some c => c.closeTimeout * Config.perMinute
  | none => 0

/-- Every entry to CHEQUERED, with the test of R142 (R141). -/
def State.enterChequered (s : State) (cause : ChequerCause) (slot : Option Nat) : State :=
  State.fieldIn
    (s.setSession
      { s.session with
        phase := .chequered, chequerTime := some s.now, chequerCause := some cause, chequerSlot := slot,
        finishPending := false, timeLimitExpiry := none,
        closeExpiry := some (s.now + s.closeTimeout) })

/-- The time-limit expiry happens (R139). -/
def State.timeLimitHappens (s : State) : State :=
  let s := s.setSession { s.session with timeLimitExpiry := none }
  if s.keyType = .race then s.setSession { s.session with finishPending := true }
  else s.enterChequered .timeLimit none

/-- The time-limit expiry is set; an instant already reached happens at once (R2, R134, R138). -/
def State.setTimeLimit (s : State) (e : Nat) : State :=
  let s := s.setSession { s.session with timeLimitExpiry := some e }
  if e ≤ s.now then s.timeLimitHappens else s

/-- Time limit in microseconds; none where it is 0 (R130, R134). -/
def State.timeLimit (s : State) : Option Nat :=
  match s.session.setup with
  | some c => if c.timeLimit = 0 then none else some (c.timeLimit * Config.perMinute)
  | none => none

/-- The lap limit; none where it is 0 (R130, R140). -/
def State.lapLimit (s : State) : Option Nat :=
  match s.session.setup with
  | some c => if c.lapLimit = 0 then none else some c.lapLimit
  | none => none

/-- The echo guard in microseconds (R81, R130). -/
def State.echoGuard (s : State) : Nat :=
  match s.session.setup with
  | some c => c.echoGuard * Config.perSecond
  | none => 0

/-- The delta direction (R98). -/
def State.deltaDirection (s : State) : DeltaDirection :=
  match s.session.setup with
  | some c => c.delta
  | none => .off

/-- The lap-limit test of R140. -/
def State.lapLimitReached (s : State) (r : Record) : Bool :=
  match s.lapLimit with
  | some n => decide (n ≤ r.laps)
  | none => false

/-- The leader test of R140. -/
def State.leaderFinishes (s : State) (r : Record) : Bool :=
  s.session.finishPending && decide (r.position = some 1)

/-- A completion is handed to the session controller, with the session state the passing found (R140). -/
def State.completion (s : State) (slot : Nat) (found : Phase) : State :=
  if s.keyType = .race ∧ (found = .green ∨ found = .caution) then
    match s.record? slot with
    | some r =>
      if s.lapLimitReached r then s.enterChequered .lapLimit (some slot)
      else if s.leaderFinishes r then s.enterChequered .leader (some slot)
      else s
    | none => s
  else s

/-! ## Lap flags set by the controller (R135, R138) -/

/-- A record with a lap in progress: RUNNING or PIT (R135). -/
def inProgress (st : RecState) : Bool := decide (st = .running) || decide (st = .pit)

/-- A lap flag is added to the current lap of every record in RUNNING or PIT (R135, R138). -/
def State.flagLaps (s : State) (f : LapFlag) : State :=
  s.updAll fun _ r => if inProgress r.state then { r with lapFlags := addLap r.lapFlags f } else r

/-! ## Competitor state changes (R57) -/

/-- The close test when a record leaves RUNNING or PIT for another state (R57, R142). -/
def State.leftField (s : State) (was : RecState) : State := if inProgress was then s.fieldIn else s

end Sys2Proof.Machine
end

