-- ==== Sys2Proof/Machine/Operands.lean ====
section
/-! DEFINITION. How a request is taken and answered: the frame gate of the reply buffer, the checks common to
all requests, and the reply (R156 to R158). -/

namespace Sys2Proof.Machine

/-- What a block answers to a request: the part after its effects, the result and the reply body (R158). -/
structure Served where
  state  : State
  result : Result
  body   : List Byte

/-- A request refused: nothing changes and the reply has no body (R158). -/
def refuse (s : State) (why : Result) : Served := { state := s, result := why, body := [] }

/-- A request taken. -/
def accept (s : State) (body : List Byte) : Served := { state := s, result := .ok, body := body }

/-- The arguments are checked first; those that fail are answered BAD_ARGUMENT (R156 step 3, R59, R132). -/
def withArgs {α : Type} (args : Option α) (s : State) (f : α → Served) : Served :=
  match args with
  | some a => f a
  | none => refuse s .badArgument

/-- BUSY while the session is ROLLING (R59, R132). -/
def unlessRolling (s : State) (f : Served) : Served :=
  if s.session.phase = .rolling then refuse s .busy else f

/-- The record a request names by slot, or NO_SUCH_RECORD (R59). -/
def withRecord (s : State) (slot : Nat) (f : Record → Served) : Served :=
  match s.record? slot with
  | some r => f r
  | none => refuse s .noSuchRecord

/-- A whole selection: what it shifted out on SDO, the port IDLE again (R156). -/
def State.shiftOut (s : State) (bs : List Byte) : State :=
  { s with report := { s.report with sdo := bs, portPhase := .idle } }

/-- A request selection shifts out zero bytes (R156). -/
def State.shiftZeros (s : State) (n : Nat) : State := s.shiftOut (List.replicate n 0#8)

/-- The frame is discarded unanswered and the OVERRUN mark of the reply being built is set (R157). -/
def State.overrun (s : State) : State :=
  { s with report := { s.report with reply := s.report.reply.map fun r => { r with overrun := true } } }

/-- The reply of a request taken: the old reply is dropped, and REPLACED is set when it was unread (R157). -/
def State.loadReply (s : State) (kind : Option RequestKind) (result : Result) (body : List Byte) : State :=
  { s with report :=
    { s.report with
      buffer := .pending,
      reply := some
        { kind := kind, result := result,
          replaced := decide (s.report.buffer = .ready) && !s.report.readFlag,
          overrun := false, body := body },
      readFlag := false } }

/-- The reply is built into the buffer (R157). -/
def State.completeReply (s : State) : State :=
  { s with report :=
    { s.report with buffer := if s.report.buffer = .pending then .ready else s.report.buffer } }

/-- A frame refused at R156 step 1 or 2: nothing changes in any block, no kind is answered, and the reply is
complete in the same event (R156, R157). -/
def State.badFrame (s : State) (why : Result) (received : Nat) : State :=
  let s := s.shiftZeros received
  if s.report.buffer = .pending then s.overrun else (s.loadReply none why []).completeReply

/-- A sound request frame is taken, with what ends the event (R156, R157). A frame of more than 32 argument
bytes cannot be sound (R156 step 1). -/
def State.takeRequestWith (s : State) (ending : State → State → State) (kind : RequestKind)
    (args : List Byte) (serve : State → Served) : State :=
  if 32 < args.length then s.badFrame .frameError (args.length + 3)
  else
    let s := s.shiftZeros (args.length + 3)
    if s.report.buffer = .pending then s.overrun
    else
      let a := serve s
      ending s (a.state.loadReply (some kind) a.result a.body)

/-- A request frame of any kind but RESET TABLES. -/
def State.takeRequest (s : State) (kind : RequestKind) (args : List Byte) (serve : State → Served) : State :=
  s.takeRequestWith closeEvent kind args serve

end Sys2Proof.Machine
end

