-- ==== Sys2Proof/Machine/Formats.lean ====
section
/-! DEFINITION. The byte layouts of replies: the reply frame (R168), bodies with presence masks (R169), and the
record, order and unknown layouts (R171). -/

namespace Sys2Proof.Machine

/-! ## The reply frame (R168) -/

/-- The reply's bytes: kind, result, marks, body length, body, check byte. -/
def replyFrame (kind : Option RequestKind) (result : Result) (marks : Nat) (body : List Byte) : List Byte :=
  withCheck
    ([BitVec.ofNat 8 (match kind with | some k => k.code | none => 0),
      BitVec.ofNat 8 (codeIn Result.all result), BitVec.ofNat 8 marks] ++
     beBytes 2 body.length ++ body)

/-- The marks of a reply: bit 0 REPLACED, bit 1 OVERRUN. -/
def Reply.marks (r : Reply) : Nat := (if r.replaced then 1 else 0) + (if r.overrun then 2 else 0)

/-- The bytes of a READY reply. -/
def Reply.frame (r : Reply) : List Byte := replyFrame r.kind r.result r.marks r.body

/-! ## Bodies with optional items (R169) -/

/-- An item of a body: always there, or optional with its place kept. -/
inductive Item where
  | always (bytes : List Byte)
  | maybe (present : Bool) (bytes : List Byte)
  deriving DecidableEq, Repr

/-- An item of one number in a fixed width. -/
def num (w n : Nat) : Item := .always (beBytes w n)

/-- An item of one signed number. -/
def signedNum (w : Nat) (z : Int) : Item := .always (beBytes w (unsignedOf w z))

/-- A flag in a byte of its own: set 00h, clear 01h, the order of the Values column (R169, log 9). -/
def flagCode (isSet : Bool) : Nat := if isSet then 0 else 1

def flag (b : Bool) : Item := .always (beBytes 1 (flagCode b))

/-- An answer whose two values nothing lists: its coding is open (log 8). -/
def answerOf (b : Bool) : Item := .always [Config.answerByte b]

/-- An optional number; an absent one keeps its place, filled with zero bytes. -/
def optNum (w : Nat) (o : Option Nat) : Item :=
  match o with
  | some n => .maybe true (beBytes w n)
  | none => .maybe false (List.replicate w 0#8)

/-- An optional item of several fields: one presence bit (R169). -/
def optBytes {α : Type} (w : Nat) (o : Option α) (f : α → List Byte) : Item :=
  match o with
  | some a => .maybe true (f a)
  | none => .maybe false (List.replicate w 0#8)

/-- The presence bits of the optional items, in body order. -/
def presence : List Item → List Bool
  | [] => []
  | .always _ :: rest => presence rest
  | .maybe b _ :: rest => b :: presence rest

/-- The mask of presence bits, bit 0 first. -/
def maskNat : List Bool → Nat
  | [] => 0
  | b :: rest => (if b then 1 else 0) + 2 * maskNat rest

/-- The bytes of the items. -/
def itemBytes : List Item → List Byte
  | [] => []
  | .always bs :: rest => bs ++ itemBytes rest
  | .maybe _ bs :: rest => bs ++ itemBytes rest

/-- A body: the presence mask in as many whole bytes as its optional items need, then the items (R169). -/
def bodyOf (items : List Item) : List Byte :=
  beBytes (((presence items).length + 7) / 8) (maskNat (presence items)) ++ itemBytes items

/-! ## READ TIME (R13) -/

def timeBody (t : TimeBase) : List Byte :=
  bodyOf [num 6 t.now, num 4 t.mark, flag t.markLimit, num 1 (codeIn Source.all t.source),
    num 1 (codeIn Mode.all t.mode), num 1 (codeIn Monitor.all t.monitor), num 1 t.goodCount, signedNum 1 t.trim,
    optBytes 5 t.lastInterval (fun i => beBytes 4 i.ticks ++ beBytes 1 (codeIn Verdict.all i.verdict)),
    optNum 6 t.lastEdge]

/-! ## READ LOOP (R34) -/

/-- Present 00h, lost 01h: the order of the Values column (R169, log 9). -/
def framingCode (framed : Bool) : Nat := if framed then 0 else 1

def pitBytes (c : PitSettings) : List Byte :=
  beBytes 1 c.inAfter ++ beBytes 1 c.outBefore ++ beBytes 4 c.length ++ beBytes 2 c.limit

/-- The items of the link named (R34). An expiry beyond the top of circuit time does not fit its six bytes, and the
manual does not say what is shown: its low 48 bits stand there (log 28). -/
def linkItems (k : Link) : List Item :=
  [num 1 (codeIn Role.all k.role), optNum 1 k.linePos, num 2 k.settings.latency, num 1 k.settings.threshold,
   num 1 k.settings.saturation, num 1 k.settings.closeGap, num 2 k.settings.maxDwell, num 1 k.settings.minHits,
   num 1 k.settings.maxAge, num 2 k.settings.silence, num 1 (codeIn Liveness.all k.settings.liveness),
   num 1 (framingCode k.framed), num 1 (codeIn LinkState.all k.state), optNum 6 k.silenceExpiry,
   optNum 6 (k.outage.map (·.start)), optNum 6 (k.outage.bind (·.stop)), optNum 6 k.latestHit, optNum 1 k.noise,
   num 2 k.flags.toNat]

def circuitItems (s : State) : List Item :=
  (s.linkList.map fun p => optNum 1 p.2.held) ++
  [num 1 s.lineCount, answerOf s.lineMapValid, answerOf s.pitValid] ++
  (s.circuit.sectorMin.toList.map fun n => num 4 n) ++ [optBytes 8 s.circuit.pit pitBytes]

def loopBody (s : State) (l : LinkNo) : List Byte := bodyOf (linkItems (s.link l) ++ circuitItems s)

/-! ## READ SESSION (R145) and READ SUMMARY (R162) -/

/-- Held 00h, released 01h: the order of the Values column (R169, log 9). -/
def lockCode (held : Bool) : Nat := if held then 0 else 1

def cursorBytes (c : Cursor) : List Byte :=
  beBytes 1 (codeIn RollPhase.all c.phase) ++ beBytes 1 c.carry.code ++
  beBytes 1 (codeIn SessionType.all c.newType) ++ beBytes 1 c.nextGrid ++ beBytes 1 c.steps

/-- The green time and the green source are one optional item (R145, log 10). -/
def greenItem (c : Session) : Item :=
  match c.greenTime, c.greenSource with
  | some t, some g => .maybe true (beBytes 6 t ++ beBytes 1 (codeIn GreenSource.all g))
  | _, _ => .maybe false (List.replicate 7 0#8)

/-- The READ SESSION reply (R145). An expiry beyond the top of circuit time is shown by its low 48 bits (log 28). -/
def sessionBody (s : State) : List Byte :=
  let c := s.session
  bodyOf [num 6 s.now, num 1 (codeIn Phase.all c.phase), flag c.incomplete, flag c.finishPending,
    num 1 (lockCode c.locked), num 1 c.number, optBytes 8 c.setup SessionSetup.bytes, greenItem c,
    num 6 c.totalSuspended, optNum 6 (c.suspension.map (·.start)), optNum 6 (c.suspension.bind (·.stop)),
    optNum 1 (c.resumeState.map (codeIn Phase.all)), optNum 6 c.timeLimitExpiry, optNum 6 c.chequerTime,
    optNum 1 (c.chequerCause.map (codeIn ChequerCause.all)), optNum 1 c.chequerSlot, optNum 6 c.closeExpiry,
    num 1 (s.countIn .running), num 1 (s.countIn .pit), optBytes 5 c.cursor cursorBytes,
    optNum 1 (c.cursor.bind (·.lastSlot))]

/-- The READ SUMMARY reply (R162). An expiry beyond the top of circuit time is shown by its low 48 bits (log 28). -/
def summaryBody (r : Reporting) : List Byte :=
  bodyOf [num 1 r.causes.toNat, num 1 r.changed.length, flag r.latch, num 1 r.moderation,
    optNum 6 r.moderationExpiry]

/-- READ CHANGES: the count and the slots in ascending order (R160). -/
def changesBody (r : Reporting) : List Byte := beBytes 1 r.changed.length ++ r.changed.flatMap (beBytes 1)

/-! ## READ RECORD (R171) -/

/-- An optional number of the fixed layouts; absent, its place is filled with zero bytes (R169). -/
def orZero (w : Nat) (o : Option Nat) : List Byte := beBytes w (o.getD 0)

/-- A time with its tag, 00h or 01h with the over-range mark (R171). -/
def timedEntry (t : Nat) : List Byte := (if overRange t then 0x01#8 else 0x00#8) :: beBytes 4 t

/-- A tag with zero time bytes (R171). -/
def taggedEntry (tag : Nat) : List Byte := BitVec.ofNat 8 tag :: beBytes 4 0

def sectorBytes : SectorEntry → List Byte
  | .timed t => timedEntry t
  | .pending => taggedEntry 2
  | .missed => taggedEntry 3
  | .excused => taggedEntry 4
  | .bypassed => taggedEntry 5
  | .untimed => taggedEntry 6

def lapTimeBytes : LapTime → List Byte
  | .timed t => timedEntry t
  | .untimed => taggedEntry 6
  | .unseen => taggedEntry 8

def bestSectorBytes : Option Nat → List Byte
  | some t => timedEntry t
  | none => taggedEntry 7

/-- A list of sector entries in 5 x L bytes; the list of an absent lap is zero bytes (log 11). -/
def sectorListBytes {α : Type} (lines : Nat) (o : Option (List α)) (f : α → List Byte) : List Byte :=
  match o with
  | some xs => xs.flatMap f
  | none => List.replicate (5 * lines) 0#8

def gapForm : Option Gap → Nat
  | some (.lapsDown _) => 1
  | _ => 0

def gapValue : Option Gap → Nat
  | some (.time t) => t
  | some (.lapsDown n) => n
  | none => 0

/-- The presence mask of a record, bits 0 to 19 (R171). -/
def recordPresence (r : Record) : List Bool :=
  [r.grid.isSome, r.retiredFrom.isSome, r.lapStart.isSome, r.lastPos.isSome, r.lastTime.isSome, r.latest.isSome,
   r.delta.isSome, r.gap.isSome, r.position.isSome, r.elapsed.isSome, r.finish.isSome, r.pit.isSome,
   (r.pit.bind (·.entry)).isSome, (r.pit.bind (·.exit)).isSome, (r.pit.bind (·.transit)).isSome,
   (r.pit.bind (·.speed)).isSome, r.sighting.isSome, r.rejection.isSome, r.lastLap.isSome, r.bestLap.isSome]

/-- Pit flags: bit 0 speeding, bit 1 open, bit 2 transit over-range (R171). -/
def pitFlags (o : Option PitRecord) : Nat :=
  match o with
  | some p =>
    (if p.speeding then 1 else 0) + (if p.isOpen then 2 else 0) + (if p.transit.any overRange then 4 else 0)
  | none => 0

def sightingBytes (o : Option Sighting) : List Byte :=
  match o with
  | some x => beBytes 1 x.link.val ++ beBytes 1 (codeIn Quality.all x.quality) ++ beBytes 6 x.time
  | none => beBytes 8 0

def rejectionBytes (o : Option Rejection) : List Byte :=
  match o with
  | some x => beBytes 1 x.link.val ++ beBytes 1 (codeIn Reason.all x.reason) ++ beBytes 6 x.time
  | none => beBytes 8 0

def lastLapBytes (o : Option LastLap) : List Byte :=
  match o with
  | some x => beBytes 2 x.number ++ lapTimeBytes x.time ++ beBytes 1 x.flags.toNat
  | none => beBytes 8 0

def bestLapBytes (o : Option BestLap) : List Byte :=
  match o with
  | some x => beBytes 2 x.number ++ beBytes 4 x.time ++ beBytes 6 x.setTime
  | none => beBytes 12 0

/-- The record body: 125 + 20 x L bytes (R171). -/
def recordBody (slot : Nat) (r : Record) (lines : Nat) : List Byte :=
  beBytes 1 slot ++ beBytes 1 r.state.code ++ beBytes 4 (maskNat (recordPresence r)) ++
  beBytes 3 r.code ++ beBytes 2 r.car ++ beBytes 1 r.cls ++ orZero 1 r.grid ++ beBytes 1 r.session ++
  beBytes 1 lines ++ orZero 1 (r.retiredFrom.map RecState.code) ++ beBytes 2 r.laps ++
  beBytes 1 ((if r.started then 1 else 0) + 2 * r.lapFlags.toNat) ++ beBytes 1 r.notices.toNat ++
  orZero 6 r.lapStart ++ orZero 1 r.lastPos ++ orZero 6 r.lastTime ++ orZero 6 r.latest ++
  beBytes 4 (unsignedOf 4 (r.delta.getD 0)) ++ beBytes 1 (gapForm r.gap) ++ beBytes 6 (gapValue r.gap) ++
  orZero 1 r.position ++ orZero 6 r.elapsed ++ orZero 6 r.finish ++ beBytes 4 r.penalty ++
  beBytes 2 (unsignedOf 2 r.netAdjust) ++ beBytes 1 r.pitStops ++ beBytes 1 (pitFlags r.pit) ++
  orZero 6 (r.pit.bind (·.entry)) ++ orZero 6 (r.pit.bind (·.exit)) ++ orZero 4 (r.pit.bind (·.transit)) ++
  orZero 2 (r.pit.bind (·.speed)) ++ sightingBytes r.sighting ++ rejectionBytes r.rejection ++
  lastLapBytes r.lastLap ++ bestLapBytes r.bestLap ++
  r.sectors.flatMap sectorBytes ++ sectorListBytes lines (r.lastLap.map (·.sectors)) sectorBytes ++
  sectorListBytes lines (r.bestLap.map (·.sectors)) bestSectorBytes ++ r.bestSectors.flatMap bestSectorBytes

/-! ## READ ORDER and READ UNKNOWN (R171) -/

def orderEntryBytes (place slot : Nat) (r : Record) : List Byte :=
  beBytes 1 place ++ beBytes 1 slot ++ beBytes 2 r.car ++ beBytes 1 r.cls ++ beBytes 2 r.laps ++
  beBytes 1 ((if r.gap.isSome then 1 else 0) + 2 * gapForm r.gap) ++ beBytes 6 (gapValue r.gap) ++
  beBytes 1 r.state.code ++ beBytes 1 0

/-- The entries of a run of places of the list (R128). -/
def orderRun (s : State) (place : Nat) : List Nat → List Byte
  | [] => []
  | slot :: rest =>
    (match s.record? slot with
     | some r => orderEntryBytes place slot r
     | none => []) ++ orderRun s (place + 1) rest

/-- READ ORDER: n, the type whose key orders the list, the number of entries, the entries (R128, R171). -/
def orderBody (s : State) (a : ReadOrderArgs) : List Byte :=
  let run := (s.order.list.drop (a.first - 1)).take a.count
  beBytes 1 s.order.list.length ++ beBytes 1 (codeIn SessionType.all s.keyType) ++ beBytes 1 run.length ++
  orderRun s a.first run

def unknownBytes (u : UnknownEntry) : List Byte :=
  beBytes 3 u.code ++ beBytes 6 u.first ++ beBytes 6 u.last ++ beBytes 1 u.link.val ++ beBytes 1 u.sightings

/-- READ UNKNOWN: the count, the flag byte with UNKNOWN_FULL in bit 0, the entries (R77, R171). -/
def unknownBody (t : CompetitorTable) : List Byte :=
  beBytes 1 t.unknown.length ++ beBytes 1 (if t.unknownFull then 1 else 0) ++ t.unknown.flatMap unknownBytes

end Sys2Proof.Machine
end

