-- ==== Sys2Proof/Machine/Session.lean ====
section
/-! DEFINITION. The session controller (08): setup, ARM, GREEN and START, caution, suspension, chequer, close,
the expiries of a session, READ SESSION. -/

namespace Sys2Proof.Machine

/-- The checks common to session requests: no arguments, not ROLLING, and a state the transition table of 8.1
allows (R132). -/
def sessionRequest (args : List Byte) (s : State) (allowed : Bool) (effect : State → Served) : Served :=
  withArgs (parseNone args) s fun _ =>
    unlessRolling s (if allowed then effect s else refuse s .wrongState)

/-- The configuration is locked: ARMED to CHEQUERED (R130 step 3). -/
def underWay (p : Phase) : Bool :=
  match p with
  | .armed | .green | .caution | .suspended | .chequered => true
  | .idle | .closed | .rolling => false

/-! ## SESSION SETUP (R130) -/

def serveSessionSetup (s : State) (c : SessionSetup) : Served :=
  unlessRolling s
    (if underWay s.session.phase then refuse s .locked
     else accept (s.setSession { s.session with setup := some c }) [])

/-- SESSION_SETUP. -/
def execSessionSetup (args : List Byte) (s : State) : Out :=
  .next (s.takeRequest .sessionSetup args fun s => withArgs (SessionSetup.parse args) s (serveSessionSetup s))

/-! ## ARM (R133) -/

/-- The held setup can be armed: present and consistent (R133). -/
def State.setupFits (s : State) : Bool :=
  match s.session.setup with
  | some c => c.consistent
  | none => false

/-- Every record that is not FREE carries the current session number (R133). -/
def State.numbersCurrent (s : State) : Bool :=
  s.table.records.all fun p => decide (p.2.session = s.session.number)

/-- Nothing stands against ARM (R133). -/
def State.canArm (s : State) : Bool :=
  s.setupFits && s.lineMapValid && s.pitValid && s.numbersCurrent

/-- The session controller after an ARM that passes (R133, R144). -/
def Session.armed (c : Session) : Session :=
  { c with
    phase := .armed, locked := true, greenTime := none, greenSource := none, suspension := none,
    chequerTime := none, chequerCause := none, chequerSlot := none, timeLimitExpiry := none,
    closeExpiry := none, totalSuspended := 0, finishPending := false, incomplete := false, cursor := none }

def serveArm (s : State) : Served :=
  if s.canArm then accept (s.emptyLead.setSession s.session.armed) [] else refuse s .badConfig

/-- ARM. -/
def execArm (args : List Byte) (s : State) : Out :=
  .next (s.takeRequest .arm args fun s => sessionRequest args s (decide (s.session.phase = .idle)) serveArm)

/-! ## GREEN and START (R134) -/

/-- An ARMED session goes GREEN (R134). -/
def State.goGreen (s : State) (source : GreenSource) : State :=
  let s' := s.setSession
    { s.session with phase := .green, greenTime := some s.now, greenSource := some source }
  match s.timeLimit with
  | some n => s'.setTimeLimit (s.now + n + s.session.totalSuspended)
  | none => s'

/-- GREEN. -/
def execGreen (args : List Byte) (s : State) : Out :=
  .next (s.takeRequest .green args fun s =>
    sessionRequest args s (decide (s.session.phase = .armed)) fun s => accept (s.goGreen .request) [])

/-- A rising edge on START, ignored in every state but ARMED (R134). -/
def State.startEdge (s : State) : State :=
  if s.session.phase = .armed then closeEvent s (s.goGreen .start) else s

/-- START_EDGE. -/
def execStartEdge (s : State) : Out := .next s.startEdge

/-! ## Caution (R135, R136) -/

def State.goCaution (s : State) : State :=
  (s.setSession { s.session with phase := .caution }).flagLaps .caution

/-- CAUTION. -/
def execCaution (args : List Byte) (s : State) : Out :=
  .next (s.takeRequest .caution args fun s =>
    sessionRequest args s (decide (s.session.phase = .green)) fun s => accept s.goCaution [])

/-- CLEAR_CAUTION. -/
def execClearCaution (args : List Byte) (s : State) : Out :=
  .next (s.takeRequest .clearCaution args fun s =>
    sessionRequest args s (decide (s.session.phase = .caution)) fun s =>
      accept (s.setSession { s.session with phase := .green }) [])

/-! ## Suspension (R137, R138) -/

/-- GREEN or CAUTION. -/
def runningPhase (p : Phase) : Bool := decide (p = .green) || decide (p = .caution)

def State.goSuspended (s : State) : State :=
  s.setSession
    { s.session with
      phase := .suspended, resumeState := some s.session.phase,
      suspension := some { start := s.now, stop := none }, timeLimitExpiry := none }

/-- SUSPEND. -/
def execSuspend (args : List Byte) (s : State) : Out :=
  .next (s.takeRequest .suspend args fun s =>
    sessionRequest args s (runningPhase s.session.phase) fun s => accept s.goSuspended [])

/-- The suspension record is ended and added to the total; the resume state becomes absent (R138, R143). -/
def State.endSuspension (s : State) : State :=
  s.setSession
    { s.session with
      suspension := s.session.suspension.map fun p => { p with stop := some s.now },
      totalSuspended := s.session.totalSuspended +
        (match s.session.suspension with | some p => s.now - p.start | none => 0),
      resumeState := none }

/-- The time-limit expiry set again at RESUME (R138). -/
def State.restoreTimeLimit (s : State) : State :=
  match s.timeLimit with
  | some n =>
    if s.session.finishPending then s
    else s.setTimeLimit (s.session.greenTime.getD 0 + n + s.session.totalSuspended)
  | none => s

/-- RESUME: the session returns to the resume state (R138). -/
def State.goResumed (s : State) : State :=
  let back := s.session.resumeState.getD .green
  let s' := s.endSuspension
  ((s'.setSession { s'.session with phase := back }).flagLaps .suspended).restoreTimeLimit

/-- RESUME. -/
def execResume (args : List Byte) (s : State) : Out :=
  .next (s.takeRequest .resume args fun s =>
    sessionRequest args s (decide (s.session.phase = .suspended)) fun s => accept s.goResumed [])

/-! ## Chequer and close (R139, R141 to R143) -/

/-- CHEQUER by request; in SUSPENDED the suspension is ended first (R141). -/
def State.goChequered (s : State) : State :=
  if s.session.phase = .suspended then
    (s.endSuspension.flagLaps .suspended).enterChequered .request none
  else s.enterChequered .request none

/-- CHEQUER. -/
def execChequer (args : List Byte) (s : State) : Out :=
  .next (s.takeRequest .chequer args fun s =>
    sessionRequest args s (runningPhase s.session.phase || decide (s.session.phase = .suspended)) fun s =>
      accept s.goChequered [])

/-- CLOSE by request; in SUSPENDED the suspension record is closed and no lap is flagged (R143). -/
def State.goClosed (s : State) : State :=
  let s' := if s.session.phase = .suspended then s.endSuspension else s
  (s'.setSession { s'.session with timeLimitExpiry := none, finishPending := false }).closeSession

/-- CLOSE. -/
def execClose (args : List Byte) (s : State) : Out :=
  .next (s.takeRequest .close args fun s =>
    sessionRequest args s (underWay s.session.phase) fun s => accept s.goClosed [])

/-- The time-limit expiry is due (R139: present only in GREEN and CAUTION). -/
def State.timeLimitDue (s : State) : Bool :=
  runningPhase s.session.phase && reached s.now s.session.timeLimitExpiry

/-- The time-limit expiry, where it is due (R139). -/
def State.timeLimitExpiry (s : State) : State :=
  if s.timeLimitDue then closeEvent s s.timeLimitHappens else s

/-- TIME_LIMIT_EXPIRY. -/
def execTimeLimitExpiry (s : State) : Out := .next s.timeLimitExpiry

/-- The close-timeout expiry is due (R142). -/
def State.closeTimeoutDue (s : State) : Bool :=
  decide (s.session.phase = .chequered) && reached s.now s.session.closeExpiry

/-- The close-timeout expiry, where it is due (R142). -/
def State.closeTimeoutExpiry (s : State) : State :=
  if s.closeTimeoutDue then closeEvent s s.closeSession else s

/-- CLOSE_TIMEOUT_EXPIRY. -/
def execCloseTimeoutExpiry (s : State) : Out := .next s.closeTimeoutExpiry

/-- READ_SESSION (R145). -/
def execReadSession (args : List Byte) (s : State) : Out :=
  .next (s.takeRequest .readSession args fun s =>
    withArgs (parseNone args) s fun _ => unlessRolling s (accept s (sessionBody s)))

end Sys2Proof.Machine
end

