-- ==== Sys2Proof/Machine/Scoring.lean ====
section
/-! DEFINITION. Line scoring (05): steps, echoes and plausibility, sectors, laps, bests, the live delta,
finishing. -/

namespace Sys2Proof.Machine

/-! ## Steps, echoes and plausibility (R81, R82) -/

/-- The reference time: the last line passing time, or the latest scored time (05, 5.2). -/
def Record.reference (r : Record) : Nat := r.lastTime.getD (r.latest.getD 0)

/-- Positions counted forward around the lap, from `q` to `p` (R81). -/
def stepsFrom (lines q p : Nat) : Nat := (((p : Int) - (q : Int)) % (lines : Int)).toNat

/-- What becomes of a stepped passing (R81, R82). -/
inductive StepVerdict where
  | rejected (why : Reason)
  | steps (k : Nat)
  deriving DecidableEq, Repr

/-- The minimum times of the `k` sectors from `q` (R82). -/
def minimumSum (minimum : Nat → Nat) (lines q : Nat) : Nat → Nat
  | 0 => 0
  | k + 1 => minimumSum minimum lines q k + minimum ((q + k) % lines)

/-- The minimum time of a sector (R21). -/
def State.sectorMinimum (s : State) (p : Nat) : Nat := s.circuit.sectorMin.toList.getD p 0

/-- The echo test: the step count, a count of 0 being an echo or a whole lap (R81). -/
def echoTest (lines guard q p : Nat) (elapsed : Int) : StepVerdict :=
  if stepsFrom lines q p = 0 then
    if elapsed < (guard : Int) then .rejected .echo else .steps lines
  else .steps (stepsFrom lines q p)

/-- The plausibility test of R82: with a last line passing time the sector minimums, without one only that
the passing is not before the latest scored time. -/
def tooSoon (minimum : Nat → Nat) (lines q k : Nat) (timed : Bool) (elapsed : Int) : Bool :=
  if timed then decide (elapsed < (minimumSum minimum lines q k : Int)) else decide (elapsed < 0)

/-- Echo test, then plausibility test, from a line state (R81, R82). -/
def State.lineTest (s : State) (q : Nat) (lastTime : Option Nat) (ref p t : Nat) : StepVerdict :=
  match echoTest s.lineCount s.echoGuard q p ((t : Int) - (ref : Int)) with
  | .rejected why => .rejected why
  | .steps k =>
    if tooSoon s.sectorMinimum s.lineCount q k lastTime.isSome ((t : Int) - (ref : Int)) then .rejected .tooSoon
    else .steps k

/-! ## Unseen loops (R85, R86) -/

/-- A period overlaps the interval from `a` to `b`; an absent end runs on to `b` (R85). -/
def Period.overlaps (p : Period) (a b : Nat) : Bool := decide (p.start ≤ b) && decide (a ≤ p.stop.getD b)

/-- An outage as the passing at time `b` reads it: one that opened at the instant the passing is taken counts as begun by
`b` (R101, where R85 alone would read the later start that R26 gives it, log 29). -/
def State.outageSeen (s : State) (b : Nat) (p : Period) : Period :=
  if p.start = s.now then { p with start := min p.start b } else p

/-- The loop at a position is excused over an interval (R85, R101). -/
def State.excused (s : State) (a b j : Nat) : Bool :=
  ((s.linkAt j).bind (·.outage)).any (fun p => (s.outageSeen b p).overlaps a b) ||
    s.session.suspension.any (fun p => p.overlaps a b)

/-- The `n` unseen loops from position `q + 1` are all excused, or the sectors are MISSED (R86). -/
def State.unseenStatus (s : State) (q n a b : Nat) : SectorEntry :=
  if (List.range n).all fun i => s.excused a b ((q + 1 + i) % s.lineCount) then .excused else .missed

/-! ## Live delta (R96 to R98) -/

/-- A delta clamped to its range (R96). -/
def clampDelta (d : Int) : Int := max (-2147483647) (min d 2147483647)

/-- The sum of the first `n` sector entries, absent when one of them is (R96). -/
def sectorSum (xs : List (Option Nat)) : Nat → Option Nat
  | 0 => some 0
  | n + 1 =>
    match sectorSum xs n, xs.getD n none with
    | some a, some b => some (a + b)
    | _, _ => none

/-- The live delta at a passing that completes no lap (R96). -/
def Record.runningDelta (r : Record) (p t : Nat) : Option Int :=
  match r.lapStart, r.bestLap with
  | some u, some b => (sectorSum b.sectors p).map fun m => clampDelta (((t : Int) - (u : Int)) - (m : Int))
  | _, _ => none

/-- The live delta at a completion, against the best lap as it stood (R97). -/
def completionDelta (time : LapTime) (best : Option BestLap) : Option Int :=
  match time, best with
  | .timed t, some b => some (clampDelta ((t : Int) - (b.time : Int)))
  | _, _ => none

/-- The previous delta of the lap in progress (R98). -/
def Record.previousDelta (r : Record) : Option Int :=
  if r.lastPos = some 0 ∨ r.lastPos = none ∨ r.lastTime = none then none else r.delta

/-- A change of class the delta direction admits (R98). -/
def deltaCrosses (dir : DeltaDirection) (before after : Option Int) : Bool :=
  match before, after with
  | some a, some b =>
    match dir with
    | .off => false
    | .toAhead => decide (0 ≤ a) && decide (b < 0)
    | .toBehind => decide (a < 0) && decide (0 ≤ b)
    | .both => (decide (0 ≤ a) && decide (b < 0)) || (decide (a < 0) && decide (0 ≤ b))
  | _, _ => false

/-- A formed delta is held, with DELTA_CROSS where it is due (R96 to R98). -/
def Record.holdDelta (r : Record) (dir : DeltaDirection) (before after : Option Int) : Record :=
  { r with
    delta := after,
    notices := if deltaCrosses dir before after then addNotice r.notices .deltaCross else r.notices }

/-! ## Laps and bests (R87, R88, R92 to R95) -/

/-- The lap's flags hold none of these flags (R93). -/
def clearOf (m : Mask 4) (fs : List LapFlag) : Bool := fs.all fun f => !hasLap m f

/-- The lap is eligible to become the best lap (R93). -/
def LastLap.eligibleTime (x : LastLap) : Option Nat :=
  match x.time with
  | .timed t => if !overRange t && clearOf x.flags [.caution, .suspended, .pit, .out] then some t else none
  | _ => none

/-- A sector entry as it is copied into a best lap (R94), and the time that can be a best sector (R93). -/
def trueTime : SectorEntry → Option Nat
  | .timed t => if overRange t then none else some t
  | _ => none

/-- A lap time beats what is held: nothing, or a greater time (R94, R95). -/
def beats (t : Nat) (held : Option Nat) : Bool :=
  match held with
  | some b => decide (t < b)
  | none => true

/-- The best lap is judged (R94). -/
def Record.judgeLap (r : Record) (x : LastLap) (setAt : Nat) : Record :=
  match x.eligibleTime with
  | some t =>
    if beats t (r.bestLap.map (·.time)) then
      { r with
        bestLap := some { time := t, number := x.number, setTime := setAt, sectors := x.sectors.map trueTime },
        notices := addNotice r.notices .newBest }
    else r
  | none => r

/-- One best sector against the sector of the ending lap (R95). -/
def betterSector (e : SectorEntry) (held : Option Nat) : Option Nat :=
  match trueTime e with
  | some t => if beats t held then some t else held
  | none => held

/-- The best sectors against the ending lap, sector by sector (R95). -/
def betterSectors : List SectorEntry → List (Option Nat) → List (Option Nat)
  | e :: es, b :: bs => betterSector e b :: betterSectors es bs
  | _, bs => bs

/-- The best sectors are judged (R93, R95). -/
def Record.judgeSectors (r : Record) (x : LastLap) : Record :=
  if clearOf x.flags [.caution, .suspended] then { r with bestSectors := betterSectors x.sectors r.bestSectors }
  else r

/-- Laps completed after one more (R87). -/
def nextLaps (n : Nat) : Nat := min (n + 1) 65535

/-- The last lap built from the ending lap (R88). -/
def Record.endingLap (r : Record) (time : LapTime) : LastLap :=
  { number := nextLaps r.laps, time := time, flags := r.lapFlags, sectors := r.sectors }

/-- A lap completes: the count, the last lap, the delta at completion, the bests, LAP and the started flag, in
the order of R87 (R110 for a lap that completes at the pit exit). -/
def Record.completeLap (r : Record) (dir : DeltaDirection) (time : LapTime) (setAt : Nat) : Record :=
  let x := r.endingLap time
  let r1 := { r with laps := nextLaps r.laps, lastLap := some x }
  let r2 := r1.holdDelta dir r.previousDelta (completionDelta time r.bestLap)
  let r3 := (r2.judgeLap x setAt).judgeSectors x
  { r3 with notices := addNotice r3.notices .lap, started := true }

/-- The flags of a lap that starts (R92). -/
def startFlags (caution out : Bool) : Mask 4 :=
  let m : Mask 4 := if caution then addLap 0 .caution else 0
  if out then addLap m .out else m

/-- A new lap starts, with the sectors already covered in it (R89, R92). -/
def Record.startLap (r : Record) (lines : Nat) (start : Option Nat) (covered : Nat) (status : SectorEntry)
    (flags : Mask 4) : Record :=
  { r with
    lapStart := start, sectors := paint (pendingSectors lines) 0 covered status, lapFlags := flags }

/-- The lap time at a completion on the line (R88). -/
def Record.lineLapTime (r : Record) (p t : Nat) : LapTime :=
  if p ≠ 0 then .unseen
  else
    match r.lapStart with
    | some u => .timed (store32 (t - u))
    | none => .untimed

/-- Race elapsed at a time (R91). -/
def State.elapsedAt (s : State) (t : Nat) : Nat :=
  t - (s.session.greenTime.getD 0 + s.session.totalSuspended)

/-! ## Finishing (R100) -/

/-- A record that has finished: no new lap is in progress (R100). -/
def Record.finished (r : Record) (lines : Nat) (at' : Option Nat) : Record :=
  { r with
    finish := at', lapStart := none, sectors := pendingSectors lines, lapFlags := 0, state := .finished,
    notices := addNotice r.notices .finished }

/-- The record becomes FINISHED; the order is re-keyed and the close test is made (R57, R100, R142). -/
def State.finishRecord (s : State) (slot : Nat) (at' : Option Nat) : State :=
  ((s.updRecord slot fun r => r.finished s.lineCount at').reorder).fieldIn

/-! ## A first line passing (R80) -/

/-- The record after a first line passing at position `p` (R80). -/
def Record.firstLine (r : Record) (caution : Bool) (p t elapsed : Nat) : Record :=
  { r with
    state := .running,
    lapStart := if p = 0 then some t else r.lapStart,
    started := if p = 0 then true else r.started,
    elapsed := if p = 0 then some elapsed else r.elapsed,
    lastPos := some p, lastTime := some t, latest := some t, delta := none,
    lapFlags := if caution then addLap r.lapFlags .caution else r.lapFlags }

/-- A first line passing, handed on as a crossing; it completes no lap (R80, R99). -/
def State.firstLine (s : State) (slot : Nat) (r : Record) (p t : Nat) : State :=
  (s.putRecord slot (r.firstLine (decide (s.session.phase = .caution)) p t (s.elapsedAt t))).crossing slot t

/-! ## A stepped passing (R84 to R90, R96 to R100) -/

/-- The entry the spanned sectors receive (R84, R86). -/
def State.spannedEntry (s : State) (r : Record) (q k t : Nat) : SectorEntry :=
  if k = 1 then
    match r.lastTime with
    | some u => .timed (store32 (t - u))
    | none => .untimed
  else s.unseenStatus q (k - 1) r.reference t

/-- The line state a scored passing leaves (R90): without a last line passing time after an unseen position 0. -/
def Record.lineState (r : Record) (p t : Nat) (unseen : Bool) : Record :=
  { r with lastPos := some p, latest := some t, lastTime := if unseen then none else some t }

/-- The stretch of `k` steps from `q` covers position 0 (R87). -/
def completes (lines q k : Nat) : Bool := decide (lines ≤ q + k)

/-- The record after a stepped passing, up to the hand-on (R84 to R98). -/
def State.steppedRecord (s : State) (r : Record) (q k p t : Nat) : Record :=
  let lines := s.lineCount
  let entry := s.spannedEntry r q k t
  let r1 := { r with sectors := paint r.sectors q (min (q + k) lines) entry }
  let r2 :=
    if completes lines q k then
      let r' := r1.completeLap s.deltaDirection (r1.lineLapTime p t) t
      if s.session.phase = .chequered then r'
      else
        r'.startLap lines (if p = 0 then some t else none) p entry
          (startFlags (decide (s.session.phase = .caution)) (hasLap r1.lapFlags .pit))
    else r1.holdDelta s.deltaDirection r.previousDelta (r1.runningDelta p t)
  let r3 := { r2 with elapsed := if p = 0 then some (s.elapsedAt t) else r2.elapsed }
  r3.lineState p t (completes lines q k && decide (p ≠ 0))

/-- Where a lap completed and the session is CHEQUERED the record finishes (R99 step 3, R100). -/
def State.finishIfChequered (s : State) (slot : Nat) (lapDone : Bool) (at' : Option Nat) : State :=
  if lapDone ∧ s.session.phase = .chequered then s.finishRecord slot at' else s

/-- A stepped passing is scored and handed on (R99). -/
def State.scoreStep (s : State) (slot : Nat) (r : Record) (q k p t : Nat) : State :=
  let found := s.session.phase
  let done := completes s.lineCount q k
  let s1 := (s.putRecord slot (s.steppedRecord r q k p t)).crossing slot t
  let s2 := if done then s1.completion slot found else s1
  s2.finishIfChequered slot done (if p = 0 then some t else none)

/-- A line passing for a record in line scoring's hands (R79). -/
def State.scoreLine (s : State) (slot : Nat) (l : LinkNo) (p t : Nat) : State :=
  match s.record? slot with
  | none => s
  | some r =>
    match r.lastPos with
    | none => s.firstLine slot r p t
    | some q =>
      match s.lineTest q r.lastTime r.reference p t with
      | .rejected why => s.reject slot l t why
      | .steps k => s.scoreStep slot r q k p t

end Sys2Proof.Machine
end

