-- ==== Sys2Proof/Machine/PitLane.lean ====
section
/-! DEFINITION. The pit monitor (06): entries, exits, the rejoin, and the irregular cases. -/

namespace Sys2Proof.Machine

/-! ## Pit positions (R103) -/

/-- b, the number of bypassed positions (R103). -/
def bypassCount (c : PitSettings) (lines : Nat) : Nat :=
  (((c.outBefore : Int) - (c.inAfter : Int) - 1) % (lines : Int)).toNat

/-- A position is bypassed (R103). -/
def bypassesPos (c : PitSettings) (lines p : Nat) : Bool :=
  (List.range (bypassCount c lines)).any fun i => decide ((c.inAfter + 1 + i) % lines = p)

/-- Position 0 is bypassed (R103). -/
def bypassesLine (c : PitSettings) : Bool :=
  decide (1 ≤ c.outBefore) && decide (c.outBefore < c.inAfter)

/-- The rejoin position (R103). -/
def rejoinPos (c : PitSettings) (lines : Nat) : Nat := (((c.outBefore : Int) - 1) % (lines : Int)).toNat

/-- The end of the run of pit sectors in the lap of the entry (R107): from pit_in_after, b + 1 of them, as far
as the lap goes. -/
def markEnd (c : PitSettings) (lines : Nat) : Nat := min (c.inAfter + bypassCount c lines + 1) lines

/-- The pit sectors at the beginning of the lap that starts at the exit (R107, R110). -/
def carriedMarks (c : PitSettings) : Nat := if bypassesLine c then c.outBefore else 0

/-! ## The order test (R105) -/

/-- The passing's time lies before the latest scored time (R105). -/
def Record.outOfOrder (r : Record) (t : Nat) : Bool :=
  match r.latest with
  | some u => decide (t < u)
  | none => false

/-! ## Entering (R104, R106, R107) -/

/-- The pit sectors of the current lap become BYPASSED (R107). -/
def Record.markPit (r : Record) (c : PitSettings) (lines : Nat) : Record :=
  { r with sectors := paint r.sectors c.inAfter (markEnd c lines) .bypassed }

/-- The marked sectors return to PENDING (R113). -/
def Record.unmarkPit (r : Record) (c : PitSettings) (lines : Nat) : Record :=
  { r with sectors := paint r.sectors c.inAfter (markEnd c lines) .pending }

/-- A pit record as it is opened (R104). -/
def PitRecord.opened (entry : Option Nat) : PitRecord :=
  { entry := entry, exit := none, transit := none, speed := none, speeding := false, isOpen := true }

/-- The entry itself (R106). -/
def Record.enterPit (r : Record) (c : PitSettings) (lines : Nat) (entry : Option Nat) : Record :=
  let r' := { r with
    pit := some (PitRecord.opened entry), pitStops := min (r.pitStops + 1) 255,
    lapFlags := addLap r.lapFlags .pit, state := .pit }
  r'.markPit c lines

/-- The record after its unseen loops up to the pit entry are settled at time `t` (R106). -/
def State.settledRecord (s : State) (r : Record) (c : PitSettings) (q t : Nat) : Record :=
  let lines := s.lineCount
  let u := stepsFrom lines q c.inAfter
  let entry := s.unseenStatus q u r.reference t
  let r1 := { r with sectors := paint r.sectors q (min (q + u) lines) entry }
  let r2 :=
    if completes lines q u then
      let r' := r1.completeLap s.deltaDirection .unseen t
      if s.session.phase = .chequered then r'
      else
        r'.startLap lines none c.inAfter entry
          (startFlags (decide (s.session.phase = .caution)) (hasLap r1.lapFlags .pit))
    else r1
  { r2 with lastPos := some c.inAfter, lastTime := none, delta := none, latest := some t }

/-- A pit entry of a record with no loops to settle, or after settling; the change of state is passed on to the
running order (R57, R106). -/
def State.openStop (s : State) (slot : Nat) (c : PitSettings) (entry : Option Nat) (t : Nat) : State :=
  (s.updRecord slot fun r => { r.enterPit c s.lineCount entry with latest := some t }).reorder

/-- A completion at a pit entry or exit: re-keyed, handed to the controller, and finishing the record where the
session is CHEQUERED (R99, R106, R110, R120). -/
def State.pitCompletion (s : State) (slot : Nat) (found : Phase) (done : Bool) (at' : Option Nat) : State :=
  if done then
    let s1 := s.reorder
    let s2 := s1.completion slot found
    s2.finishIfChequered slot done at'
  else s

/-- The record still runs on after a completion that may have finished it. -/
def State.notFinished (s : State) (slot : Nat) : Bool :=
  match s.record? slot with
  | some r => decide (r.state ≠ .finished)
  | none => false

/-- A pit entry at time `t`, its entry time given or absent (R106). -/
def State.pitEntry (s : State) (slot : Nat) (r : Record) (c : PitSettings) (found : Phase) (entry : Option Nat)
    (t : Nat) : State :=
  match r.lastPos with
  | some q =>
    if q = c.inAfter then s.openStop slot c entry t
    else
      let done := completes s.lineCount q (stepsFrom s.lineCount q c.inAfter)
      let s1 := (s.putRecord slot (s.settledRecord r c q t)).pitCompletion slot found done none
      if s1.notFinished slot then s1.openStop slot c entry t else s1
  | none => s.openStop slot c entry t

/-! ## Leaving (R108 to R110) -/

/-- The speed of a transit in units of 0.01 km/h (R109). -/
def pitSpeed (length transit : Nat) : Nat :=
  if transit = 0 then 65535 else min (length * 360000 / transit) 65535

/-- The pit record at an exit time (R108, R109). -/
def PitRecord.closedAt (p : PitRecord) (c : PitSettings) (t : Nat) : PitRecord :=
  match p.entry with
  | some e =>
    { p with
      exit := some t, transit := some (store32 (t - e)), speed := some (pitSpeed c.length (t - e)),
      speeding := decide (c.limit < pitSpeed c.length (t - e)), isOpen := false }
  | none => { p with exit := some t, speeding := false, isOpen := false }

/-- The pit record closed without an exit (R63, R65, R114). -/
def PitRecord.closedUnseen (p : PitRecord) : PitRecord :=
  { p with exit := none, transit := none, speed := none, speeding := false, isOpen := false }

/-- The record at a seen pit exit: the pit record closed, PIT_SPEEDING where due (R108, R109). -/
def Record.exitPit (r : Record) (c : PitSettings) (t : Nat) : Record :=
  match r.pit with
  | some p =>
    { r with
      pit := some (p.closedAt c t),
      notices := if (p.closedAt c t).speeding then addNotice r.notices .pitSpeeding else r.notices }
  | none => r

/-- The lap time at a rejoin (R110 step 2). -/
def Record.rejoinLapTime (r : Record) (exit : Option Nat) : LapTime :=
  match exit with
  | none => .unseen
  | some t =>
    match r.lapStart with
    | some u => .timed (store32 (t - u))
    | none => .untimed

/-- The rejoin completes a lap: the last line position is pit_in_after and position 0 is bypassed (R110). -/
def rejoinCompletes (c : PitSettings) (r : Record) : Bool := bypassesLine c && decide (r.lastPos = some c.inAfter)

/-- The record at the rejoin position, its lap completed where position 0 is bypassed (R110); `t` is the time of
the passing that brought it. -/
def State.rejoinedRecord (s : State) (r : Record) (c : PitSettings) (exit : Option Nat) (t : Nat) : Record :=
  let lines := s.lineCount
  let r1 :=
    if rejoinCompletes c r then
      let r' := r.completeLap s.deltaDirection (r.rejoinLapTime exit) t
      let r'' :=
        if s.session.phase = .chequered then r'
        else
          r'.startLap lines exit (carriedMarks c) .bypassed
            (startFlags (decide (s.session.phase = .caution)) true)
      { r'' with elapsed := match exit with | some x => some (s.elapsedAt x) | none => r''.elapsed }
    else { r with delta := none }
  { r1 with
    lastPos := some (rejoinPos c lines), lastTime := none,
    latest := match exit with | some x => some x | none => r1.latest }

/-- Where the record did not finish it is RUNNING again, and is re-keyed (R57, R110). -/
def State.backOnTrack (s : State) (slot : Nat) : State := (s.updRecord slot fun r => r.become .running).reorder

/-- The record rejoins the track (R110). An inferred exit that finishes the record gives it the passing's time
as its latest scored time before it is keyed (R114). -/
def State.rejoin (s : State) (slot : Nat) (r : Record) (c : PitSettings) (found : Phase) (exit : Option Nat)
    (t : Nat) : State :=
  let s0 := s.putRecord slot (s.rejoinedRecord r c exit t)
  if rejoinCompletes c r then
    let s1 := s0.reorder.completion slot found
    if s1.session.phase = .chequered then
      (s1.updRecord slot fun r => { r with latest := some t }).finishRecord slot exit
    else s1.backOnTrack slot
  else s0.backOnTrack slot

/-- A pit exit at time `t` (R108). -/
def State.pitExit (s : State) (slot : Nat) (c : PitSettings) (found : Phase) (t : Nat) : State :=
  match s.record? slot with
  | some r => s.rejoin slot (r.exitPit c t) c found (some t) t
  | none => s

/-! ## Pit-out passings of other records (R111, R112) -/

/-- A second sighting of the same exit (R111). -/
def Record.exitEcho (r : Record) (guard t : Nat) : Bool :=
  match r.pit.bind (·.exit) with
  | some e => decide ((t : Int) - (e : Int) < (guard : Int))
  | none => false

/-- A missed pit-in: an entry without a time, then an exit, unless the entry finished the record (R111). -/
def State.missedPitIn (s : State) (slot : Nat) (r : Record) (c : PitSettings) (found : Phase) (t : Nat) : State :=
  let s1 := s.pitEntry slot r c found none t
  if s1.notFinished slot then s1.pitExit slot c found t else s1

/-- A pit-lane start (R112). -/
def Record.pitLaneStart (r : Record) (c : PitSettings) (lines : Nat) (caution : Bool) (t : Nat) : Record :=
  let m := addLap r.lapFlags .out
  { r with
    state := .running, lastPos := some (rejoinPos c lines), latest := some t,
    lapFlags := if caution then addLap m .caution else m }

/-! ## Line passings of a record in PIT (R113, R114) -/

/-- The stop undone (R113). -/
def Record.cancelStop (r : Record) (c : PitSettings) (lines : Nat) (l : LinkNo) (t : Nat) : Record :=
  let r' := { r with
    pitStops := r.pitStops - 1, pit := none, lapFlags := dropLap r.lapFlags .pit, state := .running }
  (r'.unmarkPit c lines).reject l t .pitCancelled

/-- The test of a line passing at a bypassed position against the present line state; a record without one is
not tested (R113). -/
def State.cancelTest (s : State) (r : Record) (p t : Nat) : StepVerdict :=
  match r.lastPos with
  | some q => s.lineTest q r.lastTime r.reference p t
  | none => .steps 0

/-- A line passing at a bypassed position (R113). -/
def State.cancelPit (s : State) (slot : Nat) (r : Record) (c : PitSettings) (l : LinkNo) (p t : Nat) : State :=
  match s.cancelTest r p t with
  | .rejected why => s.reject slot l t why
  | .steps _ => ((s.putRecord slot (r.cancelStop c s.lineCount l t)).reorder).scoreLine slot l p t

/-- The record with its pit record closed at an exit that was not seen (R114). -/
def Record.exitUnseen (r : Record) : Record := { r with pit := r.pit.map PitRecord.closedUnseen }

/-- A line passing at a position that is not bypassed (R114). -/
def State.missedPitOut (s : State) (slot : Nat) (r : Record) (c : PitSettings) (l : LinkNo) (found : Phase)
    (p t : Nat) : State :=
  match s.lineTest (rejoinPos c s.lineCount) none (r.latest.getD 0) p t with
  | .rejected why => s.reject slot l t why
  | .steps _ =>
    let s1 := s.rejoin slot r.exitUnseen c found none t
    if s1.notFinished slot then s1.scoreLine slot l p t else s1

/-! ## Taking a passing (R105) -/

/-- A pit-in passing (R105). -/
def State.takePitIn (s : State) (slot : Nat) (r : Record) (c : PitSettings) (l : LinkNo) (t : Nat) : State :=
  match r.state with
  | .enrolled => s.pitEntry slot r c s.session.phase (some t) t
  | .running =>
    if r.outOfOrder t then s.reject slot l t .outOfState
    else s.pitEntry slot r c s.session.phase (some t) t
  | .pit => s.reject slot l t .echo
  | .finished | .retired | .excluded => s

/-- A pit-out passing (R105). -/
def State.takePitOut (s : State) (slot : Nat) (r : Record) (c : PitSettings) (l : LinkNo) (t : Nat) : State :=
  match r.state with
  | .enrolled =>
    s.putRecord slot (r.pitLaneStart c s.lineCount (decide (s.session.phase = .caution)) t)
  | .running =>
    if r.outOfOrder t then s.reject slot l t .outOfState
    else if r.exitEcho s.echoGuard t then s.reject slot l t .echo
    else s.missedPitIn slot r c s.session.phase t
  | .pit =>
    if r.outOfOrder t then s.reject slot l t .outOfState
    else s.pitExit slot c s.session.phase t
  | .finished | .retired | .excluded => s

/-- A line passing for a record in PIT (R105). -/
def State.takePitLine (s : State) (slot : Nat) (r : Record) (c : PitSettings) (l : LinkNo) (p t : Nat) : State :=
  if r.outOfOrder t then s.reject slot l t .outOfState
  else if bypassesPos c s.lineCount p then s.cancelPit slot r c l p t
  else s.missedPitOut slot r c l s.session.phase p t

end Sys2Proof.Machine
end

