-- ==== Sys2Proof/Machine/Competitors.lean ====
section
/-! DEFINITION. The competitor table (04): resolution and dispatch of closed passings, the unknown list, and the
requests on records, with ADJUST and READ ORDER (07). -/

namespace Sys2Proof.Machine

/-! ## The unknown list (R75) -/

/-- The order of the list: first-seen time, then code (R75). -/
def unknownBefore (a b : UnknownEntry) : Bool :=
  decide (a.first < b.first) || (decide (a.first = b.first) && decide (a.code < b.code))

/-- An entry inserted at its place. -/
def insertUnknown (e : UnknownEntry) : List UnknownEntry → List UnknownEntry
  | [] => [e]
  | x :: xs => if unknownBefore e x then e :: x :: xs else x :: insertUnknown e xs

/-- The list without a code. -/
def dropUnknown (code : Nat) (xs : List UnknownEntry) : List UnknownEntry :=
  xs.filter fun e => decide (e.code ≠ code)

/-- An entry seen again (R75, Entry present). -/
def UnknownEntry.seen (e : UnknownEntry) (l : LinkNo) (t : Nat) : UnknownEntry :=
  { e with
    sightings := min (e.sightings + 1) 255,
    last := if e.last ≤ t then t else e.last,
    link := if e.last ≤ t then l else e.link,
    first := if t < e.first then t else e.first }

/-- A passing that resolves to no record (R75). -/
def State.seeUnknown (s : State) (l : LinkNo) (code t : Nat) : State :=
  match s.table.unknown.find? fun e => decide (e.code = code) with
  | some e => s.setUnknown (insertUnknown (e.seen l t) (dropUnknown code s.table.unknown))
  | none =>
    if s.table.unknown.length < Config.unknownCapacity then
      (s.setUnknown (insertUnknown { code := code, first := t, last := t, link := l, sightings := 1 }
        s.table.unknown)).raise .unknown
    else if s.table.unknownFull then s
    else ({ s with table := { s.table with unknownFull := true } }).raise .unknown

/-! ## Resolution and dispatch (R68 to R70) -/

/-- The last sighting after a passing (R69). -/
def Record.sight (r : Record) (l : LinkNo) (t : Nat) (q : Quality) : Record :=
  if r.sighting.any (fun x => decide (t < x.time)) then r
  else { r with sighting := some { link := l, time := t, quality := q } }

/-- Passings are scored in these session states (R70). -/
def scoringPhase (p : Phase) : Bool := decide (p = .green) || decide (p = .caution) || decide (p = .chequered)

/-- A pit passing or a line passing of a record in PIT is worked with the pit settings, which are present
wherever pit links exist in an armed session (R15, R103, log 18). -/
def State.withPit (s : State) (f : PitSettings → State) : State :=
  match s.circuit.pit with
  | some c => f c
  | none => s

/-- A line passing goes to line scoring or, for a record in PIT, to the pit monitor (R70). -/
def State.dispatchLine (s : State) (slot : Nat) (r : Record) (l : LinkNo) (p t : Nat) : State :=
  match r.state with
  | .enrolled | .running => s.scoreLine slot l p t
  | .pit => s.withPit fun c => s.takePitLine slot r c l p t
  | .finished | .retired | .excluded => s

/-- A resolved passing goes to line scoring, the pit monitor or no one (R70). -/
def State.dispatch (s : State) (slot : Nat) (l : LinkNo) (t : Nat) : State :=
  if scoringPhase s.session.phase then
    match s.record? slot with
    | none => s
    | some r =>
      match (s.link l).role with
      | .line => s.dispatchLine slot r l ((s.link l).linePos.getD 0) t
      | .pitIn => s.withPit fun c => s.takePitIn slot r c l t
      | .pitOut => s.withPit fun c => s.takePitOut slot r c l t
      | .off => s
  else s

/-- A closed passing is handed on (R45, R68): discarded while ROLLING, resolved by its code otherwise. -/
def State.handOn (s : State) (l : LinkNo) (code t : Nat) (q : Quality) : State :=
  if s.session.phase = .rolling then s
  else
    match s.table.index.find code with
    | some slot => (s.updRecord slot fun r => r.sight l t q).dispatch slot l t
    | none => s.seeUnknown l code t

/-! ## ENROL and AMEND (R61, R62) -/

/-- The lowest FREE slot from 1 to the active slot limit (R61). -/
def State.freeSlotFor (s : State) : Option Nat :=
  ((List.range s.table.slotLimit).map (· + 1)).find? fun n => (s.record? n).isNone

/-- The code's entry leaves the unknown list (R61, R62). -/
def State.forget (s : State) (code : Nat) : State := s.setUnknown (dropUnknown code s.table.unknown)

def State.enrol (s : State) (a : EnrolArgs) (slot : Nat) : State :=
  ((s.putRecord slot (newRecord a s.session.number s.lineCount)).setIndex (s.table.index.put a.code slot)).forget a.code

def serveEnrol (s : State) (a : EnrolArgs) : Served :=
  unlessRolling s
    (if (s.codeHeldBy a.code).isSome then refuse s .codeInUse
     else if (s.carHeldBy a.car).isSome then refuse s .numberInUse
     else
       match s.freeSlotFor with
       | some slot => accept (s.enrol a slot) (beBytes 1 slot)
       | none => refuse s .tableFull)

/-- ENROL. -/
def execEnrol (args : List Byte) (s : State) : Out :=
  .next (s.takeRequest .enrol args fun s => withArgs (EnrolArgs.parse args) s (serveEnrol s))

/-- Another record holds the value an AMEND would give (R62). -/
def heldByOther (holder : Option Nat) (slot : Nat) : Bool := holder.any fun n => decide (n ≠ slot)

/-- A record with every change an AMEND carries (R62). -/
def Record.amended (r : Record) (a : AmendArgs) : Record :=
  { r with
    code := a.code.getD r.code, car := a.car.getD r.car, cls := a.cls.getD r.cls,
    grid := match a.grid with | .keep => r.grid | .give n => some n | .remove => none }

/-- The index and the unknown list under a changed code (R62). -/
def State.recode (s : State) (slot old : Nat) (new : Option Nat) : State :=
  match new with
  | some c =>
    if c = old then s else (s.setIndex ((s.table.index.remove old).put c slot)).forget c
  | none => s

def serveAmend (s : State) (a : AmendArgs) : Served :=
  unlessRolling s
    (withRecord s a.slot fun r =>
      if a.code.any (fun c => heldByOther (s.codeHeldBy c) a.slot) then refuse s .codeInUse
      else if a.car.any (fun n => heldByOther (s.carHeldBy n) a.slot) then refuse s .numberInUse
      else accept ((s.putRecord a.slot (r.amended a)).recode a.slot r.code a.code) [])

/-- AMEND. -/
def execAmend (args : List Byte) (s : State) : Out :=
  .next (s.takeRequest .amend args fun s => withArgs (AmendArgs.parse args) s (serveAmend s))

/-! ## RETIRE, REINSTATE, EXCLUDE, RELEASE (R63 to R66) -/

/-- The pit record of a record that leaves PIT by a request is closed (R63, R65). -/
def Record.closePit (r : Record) : Record :=
  if r.state = .pit then { r with pit := r.pit.map PitRecord.closedUnseen } else r

/-- RETIRE is taken for these states (R63). -/
def mayRetire (st : RecState) : Bool := decide (st ≠ .retired) && decide (st ≠ .excluded)

def Record.retire (r : Record) : Record := { r.closePit with retiredFrom := some r.state, state := .retired }

def serveRetire (s : State) (slot : Nat) : Served :=
  unlessRolling s
    (withRecord s slot fun r =>
      if mayRetire r.state then accept ((s.putRecord slot r.retire).leftField r.state) []
      else refuse s .wrongState)

/-- RETIRE. -/
def execRetire (args : List Byte) (s : State) : Out :=
  .next (s.takeRequest .retire args fun s => withArgs (parseSlot args) s (serveRetire s))

/-- The open flag set again (R64). -/
def PitRecord.reopened (p : PitRecord) : PitRecord := { p with isOpen := true }

/-- A RETIRED record takes its retired-from state; into PIT its pit record is opened again (R64). -/
def Record.reinstate (r : Record) (st : RecState) : Record :=
  { r with
    state := st, retiredFrom := none,
    pit := if st = .pit then r.pit.map PitRecord.reopened else r.pit }

def serveReinstate (s : State) (slot : Nat) : Served :=
  unlessRolling s
    (withRecord s slot fun r =>
      if r.state = .retired then
        accept (s.putRecord slot (r.reinstate (r.retiredFrom.getD .enrolled))) []
      else refuse s .wrongState)

/-- REINSTATE. -/
def execReinstate (args : List Byte) (s : State) : Out :=
  .next (s.takeRequest .reinstate args fun s => withArgs (parseSlot args) s (serveReinstate s))

def Record.exclude (r : Record) : Record := { r.closePit with retiredFrom := none, state := .excluded }

def serveExclude (s : State) (slot : Nat) : Served :=
  unlessRolling s
    (withRecord s slot fun r =>
      if r.state = .excluded then accept s []
      else accept ((s.putRecord slot r.exclude).leftField r.state) [])

/-- EXCLUDE. -/
def execExclude (args : List Byte) (s : State) : Out :=
  .next (s.takeRequest .exclude args fun s => withArgs (parseSlot args) s (serveExclude s))

/-- The two cases in which RELEASE is taken (R66). -/
def mayRelease (p : Phase) (r : Record) : Bool :=
  ((decide (p = .idle) || decide (p = .closed)) &&
    (decide (r.state = .enrolled) || decide (r.state = .retired) || decide (r.state = .excluded) ||
     decide (r.state = .finished))) ||
  (decide (r.state = .enrolled) && !r.started && decide (p ≠ .rolling))

def serveRelease (s : State) (slot : Nat) : Served :=
  unlessRolling s
    (withRecord s slot fun r =>
      if mayRelease s.session.phase r then
        accept ((s.freeSlot slot).setIndex (s.table.index.remove r.code)) []
      else refuse s .wrongState)

/-- RELEASE. -/
def execRelease (args : List Byte) (s : State) : Out :=
  .next (s.takeRequest .release args fun s => withArgs (parseSlot args) s (serveRelease s))

/-! ## ADJUST (R127) -/

/-- A whole number clamped to a range. -/
def clampInt (lo hi z : Int) : Int := max lo (min z hi)

def Record.adjusted (r : Record) (a : AdjustArgs) : Record :=
  { r with
    laps := (clampInt 0 65535 ((r.laps : Int) + a.laps)).toNat,
    netAdjust := clampInt (-255) 255 (r.netAdjust + a.laps),
    penalty := min (r.penalty + a.penalty) 4294967295 }

/-- The reply of ADJUST: laps completed, net lap adjustment, penalty time (R127). -/
def adjustBody (r : Record) : List Byte :=
  beBytes 2 r.laps ++ beBytes 2 (unsignedOf 2 r.netAdjust) ++ beBytes 4 r.penalty

def serveAdjust (s : State) (a : AdjustArgs) : Served :=
  unlessRolling s
    (withRecord s a.slot fun r => accept (s.putRecord a.slot (r.adjusted a)) (adjustBody (r.adjusted a)))

/-- ADJUST. -/
def execAdjust (args : List Byte) (s : State) : Out :=
  .next (s.takeRequest .adjust args fun s => withArgs (AdjustArgs.parse args) s (serveAdjust s))

/-! ## READ RECORD, SET CAPACITY, READ ORDER (R60, R67, R128) -/

/-- The slot a READ RECORD names: by slot, by code in the index, or by car number (R67). -/
def State.named (s : State) (n : RecordName) : Option Nat :=
  match n with
  | .slot k => some k
  | .code c => s.table.index.find c
  | .car c => s.carHeldBy c

/-- The notices cleared where the request chooses it (R67). -/
def Record.readOff (r : Record) (clear : Bool) : Record := if clear then { r with notices := 0 } else r

def serveReadRecord (s : State) (a : ReadRecordArgs) : Served :=
  unlessRolling s
    (match s.named a.who with
     | some slot =>
       withRecord s slot fun r => accept (s.putRecord slot (r.readOff a.clear)) (recordBody slot r s.lineCount)
     | none => refuse s .noSuchRecord)

/-- READ_RECORD. -/
def execReadRecord (args : List Byte) (s : State) : Out :=
  .next (s.takeRequest .readRecord args fun s => withArgs (ReadRecordArgs.parse args) s (serveReadRecord s))

/-- Every slot above a limit is FREE (R60). -/
def State.freeAbove (s : State) (n : Nat) : Bool := s.table.records.all fun p => decide (p.1 ≤ n)

def serveSetCapacity (s : State) (n : Nat) : Served :=
  unlessRolling s
    (if s.table.slotLimit ≤ n ∨ s.freeAbove n then accept { s with table := { s.table with slotLimit := n } } []
     else refuse s .wrongState)

/-- SET_CAPACITY. -/
def execSetCapacity (args : List Byte) (s : State) : Out :=
  .next (s.takeRequest .setCapacity args fun s => withArgs (parseCapacity args) s (serveSetCapacity s))

/-- READ_ORDER (R128). -/
def execReadOrder (args : List Byte) (s : State) : Out :=
  .next (s.takeRequest .readOrder args fun s =>
    withArgs (ReadOrderArgs.parse args) s fun a => unlessRolling s (accept s (orderBody s a)))

/-! ## READ UNKNOWN and DISMISS UNKNOWN (R76, R77) -/

/-- READ_UNKNOWN (R77). -/
def execReadUnknown (args : List Byte) (s : State) : Out :=
  .next (s.takeRequest .readUnknown args fun s =>
    withArgs (parseNone args) s fun _ => accept s (unknownBody s.table))

/-- UNKNOWN_FULL cleared where the request chooses it (R76). -/
def State.clearFull (s : State) (clear : Bool) : State :=
  if clear then { s with table := { s.table with unknownFull := false } } else s

def serveDismiss (s : State) (a : DismissArgs) : Served :=
  match a.code with
  | none => accept ((s.setUnknown []).clearFull a.clearFull) []
  | some c =>
    if s.table.unknown.any fun e => decide (e.code = c) then accept ((s.forget c).clearFull a.clearFull) []
    else refuse s .noSuchRecord

/-- DISMISS_UNKNOWN. -/
def execDismissUnknown (args : List Byte) (s : State) : Out :=
  .next (s.takeRequest .dismissUnknown args fun s => withArgs (DismissArgs.parse args) s (serveDismiss s))

end Sys2Proof.Machine
end

