-- ==== Sys2Proof/Machine/Assembler.lean ====
section
/-! DEFINITION. The passing assembler (03): weighting, the open passing table, closing, the centroid, and the
expiries of its entries. -/

namespace Sys2Proof.Machine

/-! ## Weighting and times (R37, R43) -/

/-- The weight of a hit at or above the threshold (R37). -/
def hitWeight (c : LinkSettings) (strength : Nat) : Nat := min strength c.saturation - c.threshold + 1

/-- The weighted centroid, halves rounded up (R43). -/
def OpenPassing.time (p : OpenPassing) : Nat := p.first + (p.moment + p.weight / 2) / p.weight

/-- The quality of a passing closed at its close expiry (R44). -/
def OpenPassing.quality (p : OpenPassing) : Quality := if p.saturated then .saturated else .good

/-- The close gap in microseconds (02, Settings). -/
def gapOf (c : LinkSettings) : Nat := c.closeGap * Config.perMs

/-- The maximum dwell in microseconds (02, Settings). -/
def dwellOf (c : LinkSettings) : Nat := c.maxDwell * Config.perMs

/-- A passing opened by its first hit (R38). -/
def OpenPassing.opened (c : LinkSettings) (t strength : Nat) : OpenPassing :=
  { first := t, last := t, count := 1, weight := hitWeight c strength, moment := 0,
    saturated := decide (c.saturation ≤ strength), expiry := t + gapOf c }

/-- A passing joined by another hit (R39). -/
def OpenPassing.joined (p : OpenPassing) (c : LinkSettings) (t strength : Nat) : OpenPassing :=
  { first := p.first, last := t, count := min (p.count + 1) 255, weight := p.weight + hitWeight c strength,
    moment := p.moment + hitWeight c strength * (t - p.first),
    saturated := p.saturated || decide (c.saturation ≤ strength), expiry := t + gapOf c }

/-! ## Closing (R40, R42, R45) -/

/-- A closed passing is discarded as SPARSE, or timed and handed on (R42 to R45). -/
def State.closePassing (s : State) (l : LinkNo) (code : Nat) (p : OpenPassing) (q : Quality) : State :=
  if p.count < (s.link l).settings.minHits then s.setLoopFlag l .sparse
  else s.handOn l code p.time q

/-- The close expiry of an OPEN entry happens: it leaves the table and its passing closes (R42). -/
def State.closeNow (s : State) (l : LinkNo) (code : Nat) (p : OpenPassing) : State :=
  (s.setPassings l ((s.link l).passings.remove code)).closePassing l code p p.quality

/-- The removal expiry of a GUARD entry happens (R47). -/
def State.removeGuard (s : State) (l : LinkNo) (code : Nat) : State :=
  s.setPassings l ((s.link l).passings.remove code)

/-- An OPEN entry is written with its close expiry; one already reached happens at once (R2, R38, R39). -/
def State.putPassing (s : State) (l : LinkNo) (code : Nat) (p : OpenPassing) : State :=
  let s' := s.setPassings l ((s.link l).passings.put code (.passing p))
  if p.expiry ≤ s.now then s'.closeNow l code p else s'

/-- A GUARD entry is written with its removal expiry; one already reached happens at once (R2, R40, R41). -/
def State.putGuard (s : State) (l : LinkNo) (code : Nat) (g : GuardEntry) : State :=
  let s' := s.setPassings l ((s.link l).passings.put code (.guard g))
  if g.expiry ≤ s.now then s'.removeGuard l code else s'

/-! ## A weighted hit at the table (R38 to R41) -/

/-- The GUARD entry a hit at time `t` leaves (R40, R41). -/
def guardAt (c : LinkSettings) (t : Nat) : GuardEntry := { lastAbsorbed := t, expiry := t + gapOf c }

/-- A weighted hit without an entry opens a passing, or is refused with CROWDED (R38). -/
def State.openPassing (s : State) (l : LinkNo) (code t strength : Nat) : State :=
  if (s.link l).passings.length < Config.passingCapacity then
    s.putPassing l code (OpenPassing.opened (s.link l).settings t strength)
  else s.setLoopFlag l .crowded

/-- A weighted hit with an OPEN entry joins it or stalls it (R39, R40). The stalled entry becomes a GUARD entry,
and its passing is closed and handed on. -/
def State.joinPassing (s : State) (l : LinkNo) (code t strength : Nat) (p : OpenPassing) : State :=
  if t ≤ p.first + dwellOf (s.link l).settings then
    s.putPassing l code (p.joined (s.link l).settings t strength)
  else (s.putGuard l code (guardAt (s.link l).settings t)).closePassing l code p .stalled

/-- A weighted hit at the link's table (R38 to R41). -/
def State.tableHit (s : State) (l : LinkNo) (code t strength : Nat) : State :=
  match (s.link l).passings.find code with
  | none => s.openPassing l code t strength
  | some (.passing p) => s.joinPassing l code t strength p
  | some (.guard _) => s.putGuard l code (guardAt (s.link l).settings t)

/-- A hit handed over by the link is weighted first (R37). -/
def State.assemble (s : State) (l : LinkNo) (code t strength : Nat) : State :=
  if strength < (s.link l).settings.threshold then s.setLoopFlag l .weak
  else
    (if (s.link l).settings.saturation ≤ strength then s.setLoopFlag l .strong else s).tableHit l code t strength

/-! ## Expiries of entries (R42, R47) -/

/-- The close expiry of a code's OPEN entry, where it is due (R42). -/
def State.closeExpiry (s : State) (l : LinkNo) (code : Nat) : State :=
  match (s.link l).passings.find code with
  | some (.passing p) => if p.expiry ≤ s.now then closeEvent s (s.closeNow l code p) else s
  | _ => s

/-- CLOSE_EXPIRY. -/
def execCloseExpiry (l : LinkNo) (code : Nat) (s : State) : Out := .next (s.closeExpiry l code)

/-- The removal expiry of a code's GUARD entry, where it is due (R47). -/
def State.guardRemoval (s : State) (l : LinkNo) (code : Nat) : State :=
  match (s.link l).passings.find code with
  | some (.guard g) => if g.expiry ≤ s.now then s.removeGuard l code else s
  | _ => s

/-- GUARD_REMOVAL. -/
def execGuardRemoval (l : LinkNo) (code : Nat) (s : State) : Out := .next (s.guardRemoval l code)

end Sys2Proof.Machine
end

