-- ==== Sys2Proof/Machine/Loops.lean ====
section
/-! DEFINITION. The loop link block (02): framing, liveness and outages, reports, flags, and the requests on
links and circuit settings. -/

namespace Sys2Proof.Machine

/-! ## Link state (R24 to R26) -/

/-- The link state follows from role and framing where liveness is not running (R19, R35). -/
def derivedState (role : Role) (framed : Bool) : LinkState :=
  if role = .off then .off else if framed then .silent else .down

/-- A link that leaves LIVE: the outage opens and the silence expiry is absent (R24, R26). -/
def Link.leaveLive (k : Link) (next : LinkState) (now : Nat) : Link :=
  { k with state := next, silenceExpiry := none, outage := some { start := now, stop := none } }

/-- The open outage ends (R26). -/
def closeOutage (o : Option Period) (now : Nat) : Option Period :=
  o.map fun p => if p.stop.isNone then { p with stop := some now } else p

/-- The silence timeout in microseconds (02, Settings). -/
def silenceOf (c : LinkSettings) : Nat := c.silence * Config.perMs

/-- A restarting report (R24, R25): LIVE stays LIVE, SILENT becomes LIVE and the outage closes. -/
def State.restart (s : State) (l : LinkNo) : State :=
  let k := s.link l
  let e := some (s.now + silenceOf k.settings)
  match k.state with
  | .live => s.setLink l { k with silenceExpiry := e }
  | .silent =>
    (s.setLink l { k with silenceExpiry := e, state := .live, outage := closeOutage k.outage s.now }).setLoopFlag l
      .linkState
  | .down | .off => s

/-- A delimiter is recognised: framing is present, its expiry one gap on (R23). -/
def Link.sawDelimiter (k : Link) (now : Nat) : Link := { k with framing := some (now + Config.framingGap) }

/-- Framing gained (R23, R24). While framing is present the delimiters only move its expiry on (R23, log 12). -/
def State.gainFraming (s : State) (l : LinkNo) : State :=
  let k := s.link l
  let k' := k.sawDelimiter s.now
  if k.framed = false ∧ k.state = .down then (s.setLink l { k' with state := .silent }).setLoopFlag l .linkState
  else s.setLink l k'

/-- FRAMING_GAINED. -/
def execFramingGained (l : LinkNo) (s : State) : Out := .next (s.gainFraming l).settleAttention

/-- The framing expiry is due (R23). -/
def State.framingDue (s : State) (l : LinkNo) : Bool := reached s.now (s.link l).framing

/-- Framing is lost (R23, R24, R26). -/
def State.framingHappens (s : State) (l : LinkNo) : State :=
  let k := { s.link l with framing := none }
  match k.state with
  | .live => (s.setLink l (k.leaveLive .down s.now)).setLoopFlag l .linkState
  | .silent => (s.setLink l { k with state := .down }).setLoopFlag l .linkState
  | .down | .off => s.setLink l k

/-- The framing expiry, where it is due. -/
def State.loseFraming (s : State) (l : LinkNo) : State :=
  if s.framingDue l then (s.framingHappens l).settleAttention else s

/-- FRAMING_LOST. -/
def execFramingLost (l : LinkNo) (s : State) : Out := .next (s.loseFraming l)

/-- The silence expiry of a LIVE link happens (R24 to R26). -/
def State.silenceHappens (s : State) (l : LinkNo) : State :=
  (s.setLink l ((s.link l).leaveLive .silent s.now)).setLoopFlag l .linkState

/-- The silence expiry is due (R25). -/
def State.silenceDue (s : State) (l : LinkNo) : Bool :=
  decide ((s.link l).state = .live) && reached s.now (s.link l).silenceExpiry

/-- The silence expiry, where it is due. -/
def State.silenceExpiry (s : State) (l : LinkNo) : State :=
  if s.silenceDue l then (s.silenceHappens l).settleAttention else s

/-- SILENCE_EXPIRY. -/
def execSilenceExpiry (l : LinkNo) (s : State) : Out := .next (s.silenceExpiry l)

/-! ## Reports (R27 to R31) -/

/-- A report is received only while framing is present, and is discarded on a link whose role is OFF
(R23, R27). -/
def State.receives (s : State) (l : LinkNo) : Bool := (s.link l).framed && decide ((s.link l).role ≠ .off)

/-- A report ends at a delimiter, which moves the framing expiry on in every role (R23, R170). -/
def State.seeDelimiter (s : State) (l : LinkNo) : State :=
  if (s.link l).framed then s.setLink l ((s.link l).sawDelimiter s.now) else s

/-- A report comes to its end on a link; where it is received it is handled, with what ends the event (R23, R27). -/
def State.takeReport (s : State) (l : LinkNo) (handle : State → State) : State :=
  let s' := s.seeDelimiter l
  if s'.receives l then handle s' else s'

/-- A report that is not valid (R27). -/
def State.corruptReport (s : State) (l : LinkNo) : State := s.setLoopFlag l .corrupt

/-- INVALID_REPORT. -/
def execInvalidReport (l : LinkNo) (s : State) : Out :=
  .next (s.takeReport l fun s => (s.corruptReport l).settleAttention)

/-- The age of a mark number against M (R28, R30). -/
def markAge (mark m : Nat) : Nat := (((mark : Int) - (m : Int)) % 256).toNat

/-- The age is beyond the link's maximum hit age, or before the first mark (R28, R30). -/
def staleAge (c : LinkSettings) (mark age : Nat) : Bool := decide (c.maxAge < age) || decide (mark < age)

/-- A valid report restarts the silence timer in TRAFFIC mode, before its own handling (R25, R27). -/
def State.trafficRestart (s : State) (l : LinkNo) : State :=
  if (s.link l).settings.liveness = .traffic then s.restart l else s

/-- A valid ECHO report (R25, R27, R28). -/
def State.takeEcho (s : State) (l : LinkNo) (m : Nat) : State :=
  let s := s.trafficRestart l
  if staleAge (s.link l).settings s.time.mark (markAge s.time.mark m) then s.setLoopFlag l .stale
  else if (s.link l).settings.liveness = .mark then s.restart l else s

/-- ECHO. -/
def execEcho (l : LinkNo) (m : BitVec 8) (s : State) : Out :=
  .next (s.takeReport l fun s => (s.takeEcho l m.toNat).settleAttention)

/-- The report moves the stored level across T, or is the first stored (R29). -/
def noiseChanges (threshold : Nat) (held : Option Nat) (level : Nat) : Bool :=
  match held with
  | none => true
  | some n => decide (threshold ≤ n) != decide (threshold ≤ level)

/-- A valid NOISE report (R29). -/
def State.takeNoise (s : State) (l : LinkNo) (level : Nat) : State :=
  let s := s.trafficRestart l
  let k := s.link l
  let s1 := s.setLink l { k with noise := some level }
  let s2 := if k.settings.threshold ≤ level then s1.setLoopFlag l .noisy else s1
  if noiseChanges k.settings.threshold k.noise level then s2.setLoopFlag l .noiseChange else s2

/-- NOISE. -/
def execNoise (l : LinkNo) (level : BitVec 8) (s : State) : Out :=
  .next (s.takeReport l fun s => (s.takeNoise l level.toNat).settleAttention)

/-- The hit time of a resolved hit; below 0 it is 0 (R31). -/
def hitTime (n offset latency : Nat) : Nat := n * Config.markStep + offset - latency

/-- A resolved hit is checked for its time and, accepted, handed to the assembler (R31). -/
def State.acceptHit (s : State) (l : LinkNo) (code t strength : Nat) : State :=
  if s.now < t then s.setLoopFlag l .corrupt
  else if (s.link l).latestHit.any (fun u => decide (t < u)) then s.setLoopFlag l .outOfOrder
  else (s.setLink l { s.link l with latestHit := some t }).assemble l code t strength

/-- A valid HIT report (R27, R30). -/
def State.takeHit (s : State) (l : LinkNo) (code m offset strength : Nat) : State :=
  let s := s.trafficRestart l
  let age := markAge s.time.mark m
  if staleAge (s.link l).settings s.time.mark age then s.setLoopFlag l .stale
  else s.acceptHit l code (hitTime (s.time.mark - age) offset (s.link l).settings.latency) strength

/-- HIT. Fields out of range make the report invalid (R27). -/
def execHit (l : LinkNo) (code : BitVec 24) (m : BitVec 8) (offset : BitVec 16) (strength : BitVec 8)
    (s : State) : Out :=
  .next (s.takeReport l fun s =>
    closeEvent s
      (if codeOk code.toNat ∧ offset.toNat ≤ 9999 then
        s.takeHit l code.toNat m.toNat offset.toNat strength.toNat
      else s.corruptReport l))

/-! ## SET LOOP (R16 to R20) -/

/-- The line position a SET LOOP gives the link (R17). -/
def SetLoopArgs.position (a : SetLoopArgs) : Option Nat := if a.role = .line then some a.linePos else none

/-- The link keeps its place in the timing: role, and line position while LINE (R17, R19). -/
def samePlace (k : Link) (a : SetLoopArgs) : Bool :=
  decide (k.role = a.role) && decide (k.linePos = SetLoopArgs.position a)

/-- What the configuration lock holds is unchanged (R16, R17). -/
def keepsLocked (k : Link) (a : SetLoopArgs) : Bool :=
  samePlace k a && decide (k.settings.latency = a.settings.latency)

/-- The link at a new place: what it held for the old place is dropped, its state derived again (R19). -/
def Link.moved (k : Link) (a : SetLoopArgs) : Link :=
  { k with
    role := a.role, linePos := SetLoopArgs.position a, settings := a.settings, passings := [],
    latestHit := none, outage := none, noise := none, silenceExpiry := none,
    state := derivedState a.role k.framed }

/-- The silence expiry under a new timeout: the last restart plus the new timeout (R18). -/
def Link.retimed (k : Link) (c : LinkSettings) : Link :=
  { k with
    settings := c,
    silenceExpiry :=
      if k.settings.silence = c.silence then k.silenceExpiry
      else k.silenceExpiry.map fun e => e - silenceOf k.settings + silenceOf c }

/-- The sector lists of a record rebuilt for a new L (R20). -/
def Record.remapped (r : Record) (lines : Nat) : Record :=
  { r with
    bestSectors := List.replicate lines none,
    bestLap := r.bestLap.map fun b => { b with sectors := List.replicate lines none },
    sectors := pendingSectors lines,
    lastLap := r.lastLap.map fun x => { x with sectors := pendingSectors lines },
    lastPos := if r.lastPos.any (fun p => decide (lines ≤ p)) then none else r.lastPos }

/-- A change of the line map acts on every record while the session is IDLE, CLOSED or ROLLING (R20). A record whose lists
are rebuilt to what they already hold does not join the changed-slot set: R74 is followed where R20 has each record touched
join (log 31). -/
def State.remapRecords (s : State) : State :=
  if s.session.phase = .idle ∨ s.session.phase = .closed ∨ s.session.phase = .rolling then
    s.updAll fun _ r => r.remapped s.lineCount
  else s

/-- A SET LOOP that moves the link (R19, R20). -/
def State.moveLink (s : State) (a : SetLoopArgs) : State :=
  let k := s.link a.link
  let s1 := s.setLink a.link (k.moved a)
  let s2 := if (k.moved a).state = k.state then s1 else s1.setLoopFlag a.link .linkState
  s2.remapRecords

/-- A SET LOOP that leaves the link in its place (R18); a silence expiry already reached happens at once. -/
def State.retimeLink (s : State) (a : SetLoopArgs) : State :=
  let k := s.link a.link
  let s1 := s.setLink a.link (k.retimed a.settings)
  if k.settings.silence ≠ a.settings.silence ∧ s1.silenceDue a.link then s1.silenceHappens a.link else s1

def serveSetLoop (s : State) (a : SetLoopArgs) : Served :=
  if s.session.locked && !keepsLocked (s.link a.link) a then refuse s .locked
  else if samePlace (s.link a.link) a then accept (s.retimeLink a) []
  else accept (s.moveLink a) []

/-- SET_LOOP. -/
def execSetLoop (args : List Byte) (s : State) : Out :=
  .next (s.takeRequest .setLoop args fun s => withArgs (SetLoopArgs.parse args) s (serveSetLoop s))

/-! ## SET SECTOR and SET PIT (R21, R22) -/

def State.setSectorMin (s : State) (a : SetSectorArgs) : State :=
  { s with circuit := { s.circuit with sectorMin := s.circuit.sectorMin.set a.sector a.minimum } }

/-- SET_SECTOR. -/
def execSetSector (args : List Byte) (s : State) : Out :=
  .next (s.takeRequest .setSector args fun s =>
    withArgs (SetSectorArgs.parse args) s fun a =>
      if s.session.locked then refuse s .locked else accept (s.setSectorMin a) [])

def State.setPit (s : State) (a : PitSettings) : State := { s with circuit := { s.circuit with pit := some a } }

/-- SET_PIT. -/
def execSetPit (args : List Byte) (s : State) : Out :=
  .next (s.takeRequest .setPit args fun s =>
    withArgs (PitSettings.parse args) s fun a =>
      if s.session.locked then refuse s .locked else accept (s.setPit a) [])

/-! ## READ LOOP and CLEAR LOOP FLAGS (R33, R34) -/

/-- READ_LOOP (R34). -/
def execReadLoop (args : List Byte) (s : State) : Out :=
  .next (s.takeRequest .readLoop args fun s => withArgs (parseLink args) s fun l => accept s (loopBody s l))

/-- The named flags removed (R33). -/
def Link.clearFlags (k : Link) (m : Mask 10) : Link := { k with flags := k.flags &&& ~~~m }

def State.clearLoopFlags (s : State) (a : ClearFlagsArgs) : State :=
  match a.link with
  | some l => s.setLink l ((s.link l).clearFlags a.mask)
  | none => { s with links := mapLinks (fun k => k.clearFlags a.mask) s.links }

/-- CLEAR_LOOP_FLAGS. -/
def execClearLoopFlags (args : List Byte) (s : State) : Out :=
  .next (s.takeRequest .clearLoopFlags args fun s =>
    withArgs (ClearFlagsArgs.parse args) s fun a => accept (s.clearLoopFlags a) [])

end Sys2Proof.Machine
end

