-- ==== Sys2Proof/Machine/Reporting.lean ====
section
/-! DEFINITION. The reporting unit (10): refused frames, replies, the changed-slot set, causes, moderation. -/

namespace Sys2Proof.Machine

/-! ## Frames and replies (R156, R157) -/

/-- FRAME_ERROR (R156 step 1). -/
def execFrameError (received : Nat) (s : State) : Out := .next (s.badFrame .frameError received)

/-- UNKNOWN_KIND (R156 step 2). -/
def execUnknownKind (_kind : Byte) (args : List Byte) (s : State) : Out :=
  .next (s.badFrame .unknownKind (args.length + 3))

/-- A reply that reads NOT_READY; its marks are free (R157, log 7). -/
def notReadyFrame (kind : Option RequestKind) (marks : BitVec 2) : List Byte :=
  replyFrame kind .notReady marks.toNat []

/-- The kind a NOT_READY reply gives: that of the pending request, none while the buffer is EMPTY (R157). -/
def Reporting.pendingKind (r : Reporting) : Option RequestKind :=
  match r.buffer with
  | .pending => r.reply.bind (·.kind)
  | .empty | .ready => none

/-- What a reply selection shifts out before the FFh fill (R157, R168). -/
def State.replyBytes (s : State) : List Byte :=
  match s.report.buffer, s.report.reply with
  | .ready, some r => r.frame
  | _, _ => notReadyFrame s.report.pendingKind (Config.notReadyMarks s.freeDraws)

/-- The first bytes of a reply, FFh after its end (R168). -/
def shifted (frame : List Byte) (count : Nat) : List Byte :=
  frame.take count ++ List.replicate (count - frame.length) 0xff#8

/-- A reply selection: the read flag is set when the last byte of a READY reply is shifted out (R157). -/
def State.replySelection (s : State) (count : Nat) : State :=
  let frame := s.replyBytes
  let s' := s.shiftOut (shifted frame count)
  if s.report.buffer = .ready then
    { s' with report := { s'.report with readFlag := s.report.readFlag || decide (frame.length ≤ count) } }
  else { s' with freeDraws := s.freeDraws + 1 }

/-- REPLY_SELECTION. -/
def execReplySelection (count : Nat) (s : State) : Out := .next (s.replySelection count)

/-- REPLY_COMPLETION (R157). -/
def execReplyCompletion (s : State) : Out := .next s.completeReply

/-! ## READ CHANGES and READ SUMMARY (R160, R162) -/

/-- The changed-slot set emptied (R160). -/
def State.emptyChanged (s : State) : State := { s with report := { s.report with changed := [] } }

/-- READ_CHANGES. -/
def execReadChanges (args : List Byte) (s : State) : Out :=
  .next (s.takeRequest .readChanges args fun s =>
    withArgs (parseNone args) s fun _ => accept s.emptyChanged (changesBody s.report))

/-- Every cause but RECORDS leaves the set (R162). -/
def State.dropCauses (s : State) : State :=
  { s with report := { s.report with causes := s.report.causes &&& oneOf 6 (codeIn Cause.all .records) } }

/-- READ_SUMMARY. -/
def execReadSummary (args : List Byte) (s : State) : Out :=
  .next (s.takeRequest .readSummary args fun s =>
    withArgs (parseNone args) s fun _ => accept s.dropCauses (summaryBody s.report))

/-! ## Attention and moderation (R163 to R165) -/

/-- The moderation timer ends (R164). -/
def State.endModeration (s : State) : State := { s with report := { s.report with moderationExpiry := none } }

/-- The latch cleared and the moderation timer started; an expiry already reached happens at once (R2, R164). -/
def State.acknowledge (s : State) : State :=
  let e := s.now + s.report.moderation * Config.markStep
  let s' := { s with report := { s.report with latch := false, moderationExpiry := some e } }
  if e ≤ s.now then s'.endModeration else s'

/-- ACKNOWLEDGE. -/
def execAcknowledge (args : List Byte) (s : State) : Out :=
  .next (s.takeRequest .acknowledge args fun s => withArgs (parseNone args) s fun _ => accept s.acknowledge [])

/-- SET_MODERATION (R165). -/
def execSetModeration (args : List Byte) (s : State) : Out :=
  .next (s.takeRequest .setModeration args fun s =>
    withArgs (parseModeration args) s fun n =>
      accept { s with report := { s.report with moderation := n } } [])

/-- The moderation expiry, where it is due (R164). -/
def State.moderationExpiry (s : State) : State :=
  if reached s.now s.report.moderationExpiry then s.endModeration.settleAttention else s

/-- MODERATION_EXPIRY. -/
def execModerationExpiry (s : State) : Out := .next s.moderationExpiry

end Sys2Proof.Machine
end

