-- ==== Sys2Proof/Machine/Resets.lean ====
section
/-! DEFINITION. The two resets: pin reset and the soft reset of RESET TABLES (R1, R35, R147, R166, R167). -/

namespace Sys2Proof.Machine

/-- Pin reset: every block at its reset value. The queue is the model's, and so is the counter of free draws. -/
def State.pinReset (s : State) : State := { State.reset with pending := s.pending, freeDraws := s.freeDraws }

/-- PIN_RESET. -/
def execPinReset (s : State) : Out := .next s.pinReset

/-- A link after a soft reset (R35, R51). -/
def Link.softReset (k : Link) : Link :=
  { k with
    flags := 0, outage := none, latestHit := none, silenceExpiry := none, passings := [],
    state := derivedState k.role k.framed }

/-- The reporting unit's own part of a soft reset (R166). -/
def Reporting.softReset (r : Reporting) : Reporting :=
  { r with changed := [], causes := 0, latch := false, moderationExpiry := none }

/-- The soft reset of every block (R166). -/
def State.softReset (s : State) : State :=
  { s with
    links := mapLinks Link.softReset s.links, table := CompetitorTable.reset, order := OrderBlock.reset,
    session := Session.reset, report := s.report.softReset }

/-- RESET_TABLES. No block raises a cause at the reset itself (R166). -/
def execResetTables (args : List Byte) (s : State) : Out :=
  .next (s.takeRequestWith (fun _ t => t.settleAttention) .resetTables args fun s =>
    withArgs (parseNone args) s fun _ => accept s.softReset [])

end Sys2Proof.Machine
end

