-- ==== Sys2Proof/Machine/Rollover.lean ====
section
/-! DEFINITION. Session rollover (09): ROLLOVER, the record step, HALT ROLLOVER. -/

namespace Sys2Proof.Machine

/-! ## Which record is due (R149) -/

/-- The lowest slot whose record carries a session number other than the current one (R149, phase SLOTS). -/
def State.dueSlot (s : State) : Option Nat :=
  (s.table.records.find? fun p => decide (p.2.session ≠ s.session.number)).map (·.1)

/-- The phase in which the next step is chosen (R149). -/
def State.stepPhase (s : State) (c : Cursor) : RollPhase :=
  if c.phase = .order ∧ s.order.list ≠ [] then .order else .slots

/-- The record the next step takes (R149). -/
def State.nextDue (s : State) (c : Cursor) : Option Nat :=
  match s.stepPhase c with
  | .order => s.order.list.head?
  | .slots => s.dueSlot

/-- The run completes: IDLE, INCOMPLETE clear, the cursor absent (R149). -/
def State.completeRollover (s : State) : State :=
  s.setSession { s.session with phase := .idle, incomplete := false, cursor := none }

/-- The run completes when no record is due (R149). -/
def State.rollEnd (s : State) : State := if s.dueSlot.isNone then s.completeRollover else s

/-! ## ROLLOVER (R148) -/

/-- The session number a rollover gives (R148). -/
def nextNumber (n : Nat) : Nat := (n + 1) % 256

/-- IDLE with INCOMPLETE set, and a record already carries the number the rollover would give (R148). -/
def State.numberTaken (s : State) : Bool :=
  decide (s.session.phase = .idle) && s.session.incomplete &&
  s.table.records.any fun p => decide (p.2.session = nextNumber s.session.number)

/-- The session controller as a rollover starts (R148). -/
def Session.rolling (c : Session) (a : RolloverArgs) : Session :=
  { c with
    number := nextNumber c.number, incomplete := false, phase := .rolling,
    setup := c.setup.map fun x => { x with type := a.type },
    cursor := some { phase := .order, carry := a.carry, newType := a.type, nextGrid := 1, steps := 0,
                     lastSlot := none } }

def State.goRolling (s : State) (a : RolloverArgs) : State :=
  (s.emptyLead.setSession (s.session.rolling a)).rollEnd

def serveRollover (s : State) (a : RolloverArgs) : Served :=
  unlessRolling s
    (if s.session.phase = .idle ∨ s.session.phase = .closed then
       if s.numberTaken then refuse s .badConfig else accept (s.goRolling a) []
     else refuse s .wrongState)

/-- ROLLOVER. -/
def execRollover (args : List Byte) (s : State) : Out :=
  .next (s.takeRequest .rollover args fun s => withArgs (RolloverArgs.parse args) s (serveRollover s))

/-! ## The record step (R150, R151) -/

/-- The state a record comes out of its step with (R150). -/
def rolledState (st : RecState) (carry : CarrySet) : RecState :=
  if st = .excluded ∧ carry.keepExcluded then .excluded else .enrolled

/-- The grid position a record comes out of its step with (R151). -/
def rolledGrid (r : Record) (c : Cursor) : Option Nat :=
  if c.carry.gridFromOrder then
    (if rolledState r.state c.carry = .excluded then none else some c.nextGrid)
  else r.grid

/-- A record through its step (R150, R151). -/
def Record.rolled (r : Record) (c : Cursor) (number lines : Nat) : Record :=
  let kept := { r.resetStanding (rolledState r.state c.carry) lines with
                session := number, grid := rolledGrid r c }
  if c.carry.bests then kept else kept.resetBests lines

/-- The cursor after a step (R149, R151). Its phase is the one the step was chosen in: after the step that empties the
order list it stays ORDER until the next step is chosen, though 9.1 calls it the phase of the next step (log 20). -/
def Cursor.after (c : Cursor) (phase : RollPhase) (slot : Nat) (r : Record) : Cursor :=
  { c with
    phase := phase, steps := c.steps + 1, lastSlot := some slot,
    nextGrid := if c.carry.gridFromOrder ∧ rolledState r.state c.carry ≠ .excluded then c.nextGrid + 1
                else c.nextGrid }

/-- One record step on a slot (R150). -/
def State.rollRecord (s : State) (c : Cursor) (slot : Nat) (r : Record) : State :=
  let s' := s.putRecord slot (r.rolled c s.session.number s.lineCount)
  (s'.setSession { s'.session with cursor := some (c.after (s.stepPhase c) slot r) }).rollEnd

/-- A step on whichever record is due (R149). -/
def State.rollStep (s : State) (c : Cursor) : State :=
  match s.nextDue c with
  | some slot =>
    match s.record? slot with
    | some r => s.rollRecord c slot r
    | none => s
  | none => s.completeRollover

/-- The self-started record step, taken only while ROLLING (R149). -/
def State.rolloverStep (s : State) : State :=
  if s.session.phase = .rolling then
    match s.session.cursor with
    | some c => closeEvent s (s.rollStep c)
    | none => s
  else s

/-- ROLLOVER_STEP. -/
def execRolloverStep (s : State) : Out := .next s.rolloverStep

/-! ## HALT ROLLOVER (R153) -/

def State.haltRollover (s : State) : State :=
  s.setSession { s.session with phase := .idle, incomplete := true }

def serveHaltRollover (s : State) : Served :=
  if s.session.phase = .rolling then accept s.haltRollover [] else refuse s .wrongState

/-- HALT_ROLLOVER. -/
def execHaltRollover (args : List Byte) (s : State) : Out :=
  .next (s.takeRequest .haltRollover args fun s => withArgs (parseNone args) s fun _ => serveHaltRollover s)

end Sys2Proof.Machine
end

