-- ==== Sys2Proof/Machine/TimeBase.lean ====
section
/-! DEFINITION. The time base (01): ticks and the trim, marks, the REF monitor, source selection. The commands
RAW_TICK and CORRECTIVE_TICK, which first take what is due, stand in Machine/Ticks.lean. -/

namespace Sys2Proof.Machine

/-- The time base written. -/
def State.setTime (s : State) (t : TimeBase) : State := { s with time := t }

/-! ## Ticks and trim (R1, R3) -/

/-- The correction period P, in raw ticks (R3). -/
def trimPeriod (trim : Int) : Nat := 1000000 / trim.natAbs

/-- The next raw tick is a corrective tick: it brings the trim counter to P (R3). -/
def TimeBase.correctiveNext (t : TimeBase) : Bool :=
  decide (t.trim ≠ 0) && decide (t.trimCount + 1 = trimPeriod t.trim)

/-- By how much the next raw tick advances circuit time (R1). -/
def TimeBase.increment (t : TimeBase) : Nat :=
  if t.correctiveNext then (if 0 < t.trim then 2 else 0) else 1

/-- The trim counter after a raw tick (R3). -/
def TimeBase.nextTrimCount (t : TimeBase) : Nat :=
  if t.trim = 0 then 0 else if t.correctiveNext then 0 else t.trimCount + 1

/-- One raw tick (R1, R3, R9). -/
def TimeBase.tick (t : TimeBase) : TimeBase :=
  { t with
    now := min (t.now + t.increment) Config.maxTime,
    trimCount := t.nextTrimCount,
    absence := if t.monitor = .absent then t.absence else t.absence + 1 }

/-- A trim value is set: the counter returns to 0 even when the value is the same (R3). -/
def TimeBase.setTrim (t : TimeBase) (v : Int) : TimeBase := { t with trim := v, trimCount := 0 }

/-! ## Marks (R4, R5) -/

/-- The next mark is due: its instant is reached and the mark limit is not (R4, R5). -/
def TimeBase.markDue (t : TimeBase) : Bool :=
  !t.markLimit && decide ((t.mark + 1) * Config.markStep ≤ t.now)

/-- M moves on; the last mark sets the mark limit flag (R4, R5). -/
def TimeBase.issueMark (t : TimeBase) : TimeBase :=
  { t with mark := t.mark + 1, markLimit := decide (t.mark + 1 = Config.lastMark) }

/-- The `i`-th character a link sends after its latest mark was issued, or before any: the mark frame, then idle
fill (R170, log 30). -/
def Link.sends (k : Link) (i : Nat) : LinkChar := k.downstream.getD i delimiter

/-- A mark frame is sent on a link whose role is not OFF (R4, R170). -/
def Link.sendMark (mark : Nat) (k : Link) : Link :=
  if k.role = .off then k else { k with downstream := markFrame mark }

/-- The mark issue, where it is due (R4, R5). -/
def State.markIssue (s : State) : State :=
  if s.time.markDue then
    let t := s.time.issueMark
    let s' := { s.setTime t with links := mapLinks (Link.sendMark t.mark) s.links }
    (if t.markLimit then s'.raise .time else s').settleAttention
  else s

/-- MARK_ISSUE. -/
def execMarkIssue (s : State) : Out := .next s.markIssue

/-! ## The REF monitor (R6 to R11) -/

/-- The verdict on an interval (R7). -/
def verdictOf (ticks : Nat) : Verdict := if within 999900 ticks 1000100 then .good else .bad

/-- The trim an interval gives (R8, R11, R12). -/
def trimOf (ticks : Nat) : Int := 1000000 - (ticks : Int)

/-- An edge while ABSENT starts a new qualification (R6). -/
def TimeBase.firstEdge (t : TimeBase) : TimeBase :=
  { t with monitor := .qualifying, goodCount := 0, lastEdge := some t.now, absence := 0 }

/-- An edge ends an interval: it is stored and the counter restarts (R7). -/
def TimeBase.storeInterval (t : TimeBase) : TimeBase :=
  { t with
    lastInterval := some { ticks := t.absence, verdict := verdictOf t.absence },
    lastEdge := some t.now, absence := 0 }

/-- The mode after a loss of qualification (R10). -/
def Mode.afterLoss (m : Mode) : Mode := if m = .locked then .holdover else m

/-- A bad interval (R7, R10). -/
def TimeBase.badInterval (t : TimeBase) : TimeBase :=
  { t with
    goodCount := 0, monitor := .qualifying,
    mode := if t.monitor = .qualified then Mode.afterLoss t.mode else t.mode }

/-- The monitor gains qualification with an interval (R8, R11). -/
def TimeBase.gain (t : TimeBase) (ticks : Nat) : TimeBase :=
  let t' := { t with goodCount := 4, monitor := .qualified }
  if t.source = .reference ∧ t.mode = .holdover then { t'.setTrim (trimOf ticks) with mode := .locked } else t'

/-- A good interval (R8). -/
def TimeBase.goodInterval (t : TimeBase) (ticks : Nat) : TimeBase :=
  if t.monitor = .qualified then (if t.mode = .locked then t.setTrim (trimOf ticks) else t)
  else if t.goodCount < 3 then { t with goodCount := t.goodCount + 1 }
  else t.gain ticks

/-- A rising edge on REF (R6 to R8, R10, R11). -/
def TimeBase.edge (t : TimeBase) : TimeBase :=
  if t.monitor = .absent then t.firstEdge
  else if verdictOf t.absence = .good then t.storeInterval.goodInterval t.absence
  else t.storeInterval.badInterval

/-- TIME is raised once by an event that changes the monitor state or the mode (R14). -/
def raiseTime (before after : State) : State :=
  if after.time.monitor = before.time.monitor ∧ after.time.mode = before.time.mode then after
  else after.raise .time

/-- REF_EDGE. -/
def execRefEdge (s : State) : Out := .next (raiseTime s (s.setTime s.time.edge)).settleAttention

/-- The absence counter has reached its end (R9). -/
def TimeBase.absenceDue (t : TimeBase) : Bool :=
  decide (t.monitor ≠ .absent) && decide (Config.absenceLimit ≤ t.absence)

/-- The reference is absent (R9, R10); the counter stops where it stands (log 25). -/
def TimeBase.lose (t : TimeBase) : TimeBase :=
  { t with
    monitor := .absent, goodCount := 0,
    mode := if t.monitor = .qualified then Mode.afterLoss t.mode else t.mode }

/-- The absence expiry, where it is due (R9). -/
def State.absenceExpiry (s : State) : State :=
  if s.time.absenceDue then (raiseTime s (s.setTime s.time.lose)).settleAttention else s

/-- ABSENCE_EXPIRY. -/
def execAbsenceExpiry (s : State) : Out := .next s.absenceExpiry

/-! ## Requests (R12, R13) -/

/-- INTERNAL is chosen: FREE, the trim and its counter 0 (R3, R12). -/
def TimeBase.goFree (t : TimeBase) : TimeBase := { t.setTrim 0 with source := .internal, mode := .free }

/-- REFERENCE is chosen in FREE: LOCKED, the trim from the last interval (R12). -/
def TimeBase.goLocked (t : TimeBase) : TimeBase :=
  { t.setTrim (trimOf ((t.lastInterval.map (·.ticks)).getD 1000000)) with source := .reference, mode := .locked }

/-- The table of R12. -/
def serveSelectSource (s : State) (x : Source) : Served :=
  match x with
  | .internal => if s.time.mode = .free then accept s [] else accept (raiseTime s (s.setTime s.time.goFree)) []
  | .reference =>
    if s.time.monitor ≠ .qualified then refuse s .notQualified
    else if s.time.mode = .free then accept (raiseTime s (s.setTime s.time.goLocked)) []
    else accept s []

/-- SELECT_SOURCE. -/
def execSelectSource (args : List Byte) (s : State) : Out :=
  .next (s.takeRequest .selectSource args fun s => withArgs (parseSource args) s (serveSelectSource s))

/-- READ_TIME (R13). -/
def execReadTime (args : List Byte) (s : State) : Out :=
  .next (s.takeRequest .readTime args fun s => withArgs (parseNone args) s fun _ => accept s (timeBody s.time))

end Sys2Proof.Machine
end

