-- ==== Sys2Proof/Machine/Ticks.lean ====
section
/-! DEFINITION. The raw tick (R1 to R3): what is due and not yet taken happens before circuit time moves on
(R2, log 3), then the tick advances it. -/

namespace Sys2Proof.Machine

/-- The entries of one link's open passing table whose expiries are due (R42, R47). -/
def State.takeEntries (s : State) (l : LinkNo) : State :=
  ((s.link l).passings.map Prod.fst).foldl (fun t code => (t.closeExpiry l code).guardRemoval l code) s

/-- A function applied for every link, from link 0. -/
def State.forLinks (s : State) (f : State → LinkNo → State) : State :=
  f (f (f (f (f (f (f (f s 0) 1) 2) 3) 4) 5) 6) 7

/-- Everything due is taken, in one fixed order (R2, log 3). -/
def State.takeDue (s : State) : State :=
  let s1 := s.markIssue.absenceExpiry
  let s2 := ((s1.forLinks State.loseFraming).forLinks State.silenceExpiry).forLinks State.takeEntries
  s2.timeLimitExpiry.closeTimeoutExpiry.moderationExpiry

/-- A raw tick (R1). -/
def State.tick (s : State) : State :=
  let s' := s.takeDue
  s'.setTime s'.time.tick

/-- RAW_TICK. A tick that is due to be corrective acts as the corrective tick it is (log 4). -/
def execRawTick (s : State) : Out := .next s.tick

/-- CORRECTIVE_TICK, where the next tick is corrective (R3, log 4). -/
def State.correctiveTick (s : State) : State := if s.time.correctiveNext then s.tick else s

/-- CORRECTIVE_TICK. -/
def execCorrectiveTick (s : State) : Out := .next s.correctiveTick

end Sys2Proof.Machine
end

