-- ==== Sys2Proof/Machine/Dispatch.lean ====
section
/-! DEFINITION. Each command to its meaning: one arm per row of spec/opcode_table.json. -/

namespace Sys2Proof.Machine

def exec (i : Instr) (s : State) : Host.Outcome State Fault Refusal :=
  match i with
  | .pinReset => Sys2Proof.Machine.execPinReset s
  | .correctiveTick => Sys2Proof.Machine.execCorrectiveTick s
  | .markIssue => Sys2Proof.Machine.execMarkIssue s
  | .refEdge => Sys2Proof.Machine.execRefEdge s
  | .absenceExpiry => Sys2Proof.Machine.execAbsenceExpiry s
  | .startEdge => Sys2Proof.Machine.execStartEdge s
  | .framingGained l => Sys2Proof.Machine.execFramingGained l s
  | .framingLost l => Sys2Proof.Machine.execFramingLost l s
  | .hit l c m o x => Sys2Proof.Machine.execHit l c m o x s
  | .echo l m => Sys2Proof.Machine.execEcho l m s
  | .noise l v => Sys2Proof.Machine.execNoise l v s
  | .invalidReport l => Sys2Proof.Machine.execInvalidReport l s
  | .silenceExpiry l => Sys2Proof.Machine.execSilenceExpiry l s
  | .closeExpiry l c => Sys2Proof.Machine.execCloseExpiry l c s
  | .guardRemoval l c => Sys2Proof.Machine.execGuardRemoval l c s
  | .timeLimitExpiry => Sys2Proof.Machine.execTimeLimitExpiry s
  | .closeTimeoutExpiry => Sys2Proof.Machine.execCloseTimeoutExpiry s
  | .moderationExpiry => Sys2Proof.Machine.execModerationExpiry s
  | .frameError n => Sys2Proof.Machine.execFrameError n s
  | .unknownKind k a => Sys2Proof.Machine.execUnknownKind k a s
  | .replySelection n => Sys2Proof.Machine.execReplySelection n s
  | .replyCompletion => Sys2Proof.Machine.execReplyCompletion s
  | .selectSource a => Sys2Proof.Machine.execSelectSource a s
  | .readTime a => Sys2Proof.Machine.execReadTime a s
  | .setLoop a => Sys2Proof.Machine.execSetLoop a s
  | .setSector a => Sys2Proof.Machine.execSetSector a s
  | .setPit a => Sys2Proof.Machine.execSetPit a s
  | .readLoop a => Sys2Proof.Machine.execReadLoop a s
  | .clearLoopFlags a => Sys2Proof.Machine.execClearLoopFlags a s
  | .enrol a => Sys2Proof.Machine.execEnrol a s
  | .amend a => Sys2Proof.Machine.execAmend a s
  | .retire a => Sys2Proof.Machine.execRetire a s
  | .reinstate a => Sys2Proof.Machine.execReinstate a s
  | .exclude a => Sys2Proof.Machine.execExclude a s
  | .release a => Sys2Proof.Machine.execRelease a s
  | .adjust a => Sys2Proof.Machine.execAdjust a s
  | .readRecord a => Sys2Proof.Machine.execReadRecord a s
  | .setCapacity a => Sys2Proof.Machine.execSetCapacity a s
  | .readUnknown a => Sys2Proof.Machine.execReadUnknown a s
  | .dismissUnknown a => Sys2Proof.Machine.execDismissUnknown a s
  | .readOrder a => Sys2Proof.Machine.execReadOrder a s
  | .sessionSetup a => Sys2Proof.Machine.execSessionSetup a s
  | .arm a => Sys2Proof.Machine.execArm a s
  | .green a => Sys2Proof.Machine.execGreen a s
  | .caution a => Sys2Proof.Machine.execCaution a s
  | .clearCaution a => Sys2Proof.Machine.execClearCaution a s
  | .suspend a => Sys2Proof.Machine.execSuspend a s
  | .resume a => Sys2Proof.Machine.execResume a s
  | .chequer a => Sys2Proof.Machine.execChequer a s
  | .close a => Sys2Proof.Machine.execClose a s
  | .rollover a => Sys2Proof.Machine.execRollover a s
  | .rolloverStep => Sys2Proof.Machine.execRolloverStep s
  | .haltRollover a => Sys2Proof.Machine.execHaltRollover a s
  | .readSession a => Sys2Proof.Machine.execReadSession a s
  | .readSummary a => Sys2Proof.Machine.execReadSummary a s
  | .readChanges a => Sys2Proof.Machine.execReadChanges a s
  | .acknowledge a => Sys2Proof.Machine.execAcknowledge a s
  | .setModeration a => Sys2Proof.Machine.execSetModeration a s
  | .resetTables a => Sys2Proof.Machine.execResetTables a s
  | .rawTick => Sys2Proof.Machine.execRawTick s

end Sys2Proof.Machine
end

