-- ==== Sys2Proof/Safety.lean ====
section
/-! DEFINITION. What a state of the part must satisfy (the tables and prose of the chapters), and the words claims are
stated in: what a reply leaves, which causes an event raises, what an event keeps. -/

namespace Sys2Proof.Machine

/-! ## Legal states, block by block -/

/-- The tables at the head of 01: ranges, the table of selection and mode, the trim counter below its period (R3), the
marks behind the clock (R4, R5), a good last interval while QUALIFIED (R8). -/
abbrev TimeBase.legal (t : TimeBase) : Prop :=
  t.now ≤ 281474976710655 ∧ t.mark ≤ 4294967295 ∧ t.mark * 10000 ≤ t.now ∧
  (t.markLimit = true ↔ t.mark = 4294967295) ∧
  (t.source = .internal ↔ t.mode = .free) ∧
  (t.source = .reference → (t.mode = .locked ↔ t.monitor = .qualified)) ∧
  -100 ≤ t.trim ∧ t.trim ≤ 100 ∧ (t.mode = .free → t.trim = 0) ∧ (t.trim = 0 → t.trimCount = 0) ∧
  (t.trim ≠ 0 → t.trimCount < 1000000 / t.trim.natAbs) ∧
  t.goodCount ≤ 4 ∧ (t.monitor = .qualified ↔ t.goodCount = 4) ∧ (t.monitor = .absent → t.goodCount = 0) ∧
  t.absence ≤ 1500000 ∧
  (∀ i ∈ t.lastInterval, i.ticks ≤ 1500000 ∧ (i.verdict = .good ↔ 999900 ≤ i.ticks ∧ i.ticks ≤ 1000100)) ∧
  (t.monitor = .qualified → ∃ i ∈ t.lastInterval, i.verdict = .good)

/-- The reporting unit between events: RECORDS is pending exactly while the changed-slot set is not empty (R161); the
latch is set only while a cause is pending, and is set while one is and the timer is stopped (R163). -/
abbrev Reporting.legal (r : Reporting) : Prop :=
  (hasCause r.causes .records = true ↔ r.changed ≠ []) ∧ r.changed.Pairwise (· < ·) ∧
  (r.latch = true → r.causes ≠ 0#6) ∧ (r.causes ≠ 0#6 → r.moderationExpiry = none → r.latch = true) ∧
  r.moderation ≤ 100 ∧ r.portPhase = .idle ∧ (r.buffer = .empty ↔ r.reply = none) ∧
  (r.readFlag = true → r.buffer = .ready)

/-- An OPEN entry (03, table of fields): its hits in time order, its count from 1 to 255, its weighted sum within the
span of its hits, and no hit after the link's latest accepted hit (R37 to R39). -/
abbrev OpenPassing.legal (p : OpenPassing) (latest : Option Nat) : Prop :=
  p.first ≤ p.last ∧ 1 ≤ p.count ∧ p.count ≤ 255 ∧ 1 ≤ p.weight ∧ p.moment ≤ p.weight * (p.last - p.first) ∧
  ∃ u ∈ latest, p.last ≤ u

/-- The passing of an OPEN entry. -/
def Entry.openPassing? : Entry → Option OpenPassing
  | .passing p => some p
  | .guard _ => none

/-- An entry of an open passing table. -/
abbrev Entry.legal (e : Entry) (latest : Option Nat) : Prop := ∀ p ∈ e.openPassing?, p.legal latest

/-- A link: its settings in range (02, Settings), its state the one of role and framing, a silence expiry exactly
while LIVE (R24), no open outage while LIVE (R26), nothing held while OFF (R36), at most 16 entries (R36). -/
abbrev Link.legal (k : Link) : Prop :=
  (k.role = .line ↔ k.linePos.isSome = true) ∧ (∀ p ∈ k.linePos, p < 8) ∧ k.settings.inRange = true ∧
  (k.role = .off ↔ k.state = .off) ∧ (k.role ≠ .off → (k.framing = none ↔ k.state = .down)) ∧
  (k.state = .live ↔ k.silenceExpiry.isSome = true) ∧ (k.state = .live → ∀ o ∈ k.outage, o.stop.isSome = true) ∧
  (k.role = .off → k.passings = []) ∧ k.passings.wf ∧ k.passings.length ≤ 16 ∧
  (∀ q ∈ k.passings, q.2.legal k.latestHit)

/-- The session controller: the lock is held from ARM to the entry of CLOSED (R144); the resume state and an open
suspension exactly while SUSPENDED (R137); a time-limit expiry only in GREEN and CAUTION (R139); a close-timeout expiry
exactly while CHEQUERED (R141, R142); FINISH_PENDING only in a running or suspended session (R139, R143); a cursor
while ROLLING (9.1); INCOMPLETE only in IDLE (R153). -/
abbrev Session.legal (c : Session) : Prop :=
  (c.locked = true ↔ underWay c.phase = true) ∧ (underWay c.phase = true → c.setup.isSome = true) ∧
  (c.phase = .suspended ↔ c.resumeState.isSome = true) ∧
  (∀ p ∈ c.resumeState, p = .green ∨ p = .caution) ∧
  (c.phase = .suspended ↔ ∃ p ∈ c.suspension, p.stop = none) ∧
  (c.timeLimitExpiry.isSome = true → c.phase = .green ∨ c.phase = .caution) ∧
  (c.phase = .chequered ↔ c.closeExpiry.isSome = true) ∧
  (c.finishPending = true → c.phase = .green ∨ c.phase = .caution ∨ c.phase = .suspended) ∧
  (c.phase = .rolling → c.cursor.isSome = true) ∧ (c.incomplete = true → c.phase = .idle) ∧ c.number ≤ 255

/-- The order list is the one the keys fix, every record's order position is its place in it, and a record outside it
has no gap (R116, R125). -/
abbrev State.orderAgrees (s : State) : Prop :=
  s.order.list = orderOf s.keyType s.table.records ∧
  ∀ p ∈ s.table.records, p.2.position = placeOf s.order.list p.1 ∧ (p.2.position = none → p.2.gap = none)

/-- Records by slot and index by code in canonical form; the index holds exactly one pair for each record (R58); no
two records hold one car number (R53). -/
abbrev CompetitorTable.legal (t : CompetitorTable) : Prop :=
  t.records.wf ∧ t.index.wf ∧ (∀ p ∈ t.records, t.index.find p.2.code = some p.1) ∧
  (∀ q ∈ t.index, ∃ p ∈ t.records, p.1 = q.2 ∧ p.2.code = q.1) ∧
  t.records.Pairwise (fun p q => p.2.car ≠ q.2.car) ∧ (∀ p ∈ t.records, 1 ≤ p.1 ∧ p.1 ≤ 128) ∧
  1 ≤ t.slotLimit ∧ t.slotLimit ≤ 128

/-- The unknown list: at most 16 entries, distinct codes that no record holds, in order of first-seen time and code,
sightings 1 to 255 (R75). -/
abbrev CompetitorTable.unknownLegal (t : CompetitorTable) : Prop :=
  t.unknown.length ≤ 16 ∧ (t.unknown.map (·.code)).Nodup ∧
  t.unknown.Pairwise (fun a b => a.first < b.first ∨ a.first = b.first ∧ a.code < b.code) ∧
  ∀ e ∈ t.unknown, 1 ≤ e.sightings ∧ e.sightings ≤ 255 ∧ e.first ≤ e.last ∧ t.index.find e.code = none

/-- A record: retired-from present exactly while RETIRED (4.1); an open pit record exactly while PIT (R104); a record
that has not been scored has no line state (R54), and one in the running order has a latest scored time (R117). -/
abbrev Record.legal (r : Record) : Prop :=
  (r.state = .retired ↔ r.retiredFrom.isSome = true) ∧ r.retiredFrom ≠ some .retired ∧ r.retiredFrom ≠ some .excluded ∧
  (r.state = .pit ↔ ∃ p ∈ r.pit, p.isOpen = true) ∧ (r.retiredFrom = some .pit → r.pit.isSome = true) ∧
  (r.state = .enrolled ∨ r.retiredFrom = some .enrolled → r.lastPos = none ∧ r.latest = none ∧ r.started = false) ∧
  (stateInOrder r.state = true ∨ r.retiredFrom.any stateInOrder = true → r.latest.isSome = true)

/-- Every sector list of a record has L entries (R55). -/
abbrev Record.sized (lines : Nat) (r : Record) : Prop :=
  r.sectors.length = lines ∧ r.bestSectors.length = lines ∧ (∀ x ∈ r.lastLap, x.sectors.length = lines) ∧
  ∀ b ∈ r.bestLap, b.sectors.length = lines

/-- The order list and the reporting unit are as every event leaves them (R57, R116, R161, R163). -/
abbrev State.settled (s : State) : Prop := s.orderAgrees ∧ s.report.legal

/-- Settled, and with no reply being built (a request that meets one is discarded, R157). -/
abbrev State.ready (s : State) : Prop := s.settled ∧ s.report.buffer ≠ .pending

/-! ## The words of claims -/

/-- A request of a kind has been taken and answered: the reply is being built, with its marks, the port is IDLE, and
zero bytes were shifted out (R156, R157). -/
def Answers (s t : State) (kind : RequestKind) (args : List Byte) (result : Result) (body : List Byte) : Prop :=
  t.report.buffer = .pending ∧ t.report.readFlag = false ∧ t.report.portPhase = .idle ∧
  t.report.sdo = List.replicate (args.length + 3) 0#8 ∧
  t.report.reply = some
    { kind := some kind, result := result, replaced := decide (s.report.buffer = .ready) && !s.report.readFlag,
      overrun := false, body := body }

/-- The blocks other than the competitor table, the running order, the session controller and the reporting unit are
as they were. -/
def KeepsTrackside (s t : State) : Prop := t.time = s.time ∧ t.links = s.links ∧ t.circuit = s.circuit

/-- The queue and the model's counter of free draws are as they were. -/
def KeepsQueue (s t : State) : Prop := t.pending = s.pending ∧ t.freeDraws = s.freeDraws

/-- The competitor table, the running order and the session controller are as they were. -/
def KeepsRace (s t : State) : Prop := t.table = s.table ∧ t.order = s.order ∧ t.session = s.session

/-- The port and its reply are as they were. -/
def KeepsPort (s t : State) : Prop :=
  t.report.portPhase = s.report.portPhase ∧ t.report.buffer = s.report.buffer ∧ t.report.reply = s.report.reply ∧
  t.report.readFlag = s.report.readFlag ∧ t.report.sdo = s.report.sdo

/-- The moderation setting and timer are as they were. -/
def KeepsTimer (s t : State) : Prop :=
  t.report.moderation = s.report.moderation ∧ t.report.moderationExpiry = s.report.moderationExpiry

/-- The changed-slot set, the causes and the latch are as they were. -/
def KeepsNews (s t : State) : Prop :=
  t.report.changed = s.report.changed ∧ t.report.causes = s.report.causes ∧ t.report.latch = s.report.latch

/-- Only the port and its reply differ: what a refused request and a read that clears nothing leave (R158). -/
def OnlyReply (s t : State) : Prop :=
  KeepsTrackside s t ∧ KeepsRace s t ∧ KeepsQueue s t ∧ KeepsTimer s t ∧ KeepsNews s t

/-- The pending causes are those pending before and the ones named. -/
def RaisesOnly (s t : State) (raised : List Cause) : Prop :=
  ∀ c, hasCause t.report.causes c = (hasCause s.report.causes c || decide (c ∈ raised))

/-- The latch after an event that keeps the timer: clear with no cause pending, set with one pending and the timer
stopped, as it was otherwise (R163). -/
def LatchFollows (s t : State) : Prop :=
  t.report.latch =
    if t.report.causes = 0#6 then false else if t.report.moderationExpiry = none then true else s.report.latch

/-- An event that changes no record: the changed-slot set is as it was, the causes are joined by these alone, and the
latch is as R163 has it. -/
def Reports (s t : State) (raised : List Cause) : Prop :=
  t.report.changed = s.report.changed ∧ RaisesOnly s t raised ∧ LatchFollows s t ∧ KeepsTimer s t

/-- What an event tells the reporting unit beside the causes named: each changed record joins the changed-slot set
(R74) and so raises RECORDS (R161), a changed order raises ORDER (R121), a changed item of READ SESSION but circuit time
raises SESSION (R132, the model's reading of the items in log 16), and the latch is as R163 has it. -/
def Follows (s t : State) (raised : List Cause) : Prop :=
  (∀ n, n ∈ t.report.changed ↔ n ∈ s.report.changed ∨ t.record? n ≠ s.record? n) ∧
  (∀ c, hasCause t.report.causes c = (hasCause s.report.causes c || decide (c ∈ raised) ||
    match c with
    | .records => decide (t.report.changed ≠ [])
    | .order => decide (t.order.list ≠ s.order.list)
    | .session => decide (t.sessionItems ≠ s.sessionItems)
    | .loops | .time | .unknown => false)) ∧
  LatchFollows s t ∧ KeepsTimer s t

/-- A request refused: its reply says why, and nothing else changed (R158). -/
def Refuses (s t : State) (kind : RequestKind) (args : List Byte) (why : Result) : Prop :=
  Answers s t kind args why [] ∧ OnlyReply s t

/-- A request answered OK that works on the competitor table, the running order or the session controller alone. -/
def Takes (s t : State) (kind : RequestKind) (args body : List Byte) : Prop :=
  Answers s t kind args .ok body ∧ KeepsTrackside s t ∧ KeepsQueue s t ∧ Follows s t []

/-- The transponder index, the unknown list and the slot limit are as they were. -/
def KeepsIndex (s t : State) : Prop :=
  t.table.index = s.table.index ∧ t.table.unknown = s.table.unknown ∧ t.table.unknownFull = s.table.unknownFull ∧
  t.table.slotLimit = s.table.slotLimit

/-- The lead table and its highest index are as they were. -/
def KeepsLead (s t : State) : Prop := t.order.lead = s.order.lead ∧ t.order.highest = s.order.highest

/-- A record that only changed its place in the order: nothing but its order position, with the notice POSITION where
that changed, and its gap kept while it stays in the list (R119, R120). -/
def OnlyPlaced (r r' : Record) : Prop :=
  r' = { r with position := r'.position, gap := r'.gap,
                notices := if r'.position = r.position then r.notices else addNotice r.notices .position } ∧
  (r'.position.isSome = true → r'.gap = r.gap) ∧ (r'.position = none → r'.gap = none)

/-- Every record but one changed at most its place in the order, and no slot became FREE or taken. -/
def OthersOnlyPlaced (s t : State) (slot : Nat) : Prop :=
  ∀ n, n ≠ slot → match s.record? n, t.record? n with
    | some r, some r' => OnlyPlaced r r'
    | none, none => True
    | _, _ => False

/-- A record that may have changed its place more than once in the event: its order position, its gap where it left the
list, and the notice POSITION, and nothing else (R119, R120). -/
def OnlyMoved (r r' : Record) : Prop :=
  r' = { r with position := r'.position, gap := r'.gap, notices := r'.notices } ∧
  (r'.notices = r.notices ∨ r'.notices = addNotice r.notices .position) ∧
  (r'.position ≠ r.position → hasNotice r'.notices .position = true) ∧
  (r'.position.isSome = true → r'.gap = r.gap) ∧ (r'.position = none → r'.gap = none)

/-- Every record but one moved at most in the order, and no slot became FREE or taken. -/
def OthersOnlyMoved (s t : State) (slot : Nat) : Prop :=
  ∀ n, n ≠ slot → match s.record? n, t.record? n with
    | some r, some r' => OnlyMoved r r'
    | none, none => True
    | _, _ => False

/-! ## Links -/

/-- Every link but one is as it was. -/
def OtherLinks (s t : State) (l : LinkNo) : Prop := ∀ j, j ≠ l → t.link j = s.link j

/-- A set of flags joined by flags one after another (R32). -/
def addFlags (m : Mask 10) (fs : List LoopFlag) : Mask 10 := fs.foldl addFlag m

/-- LOOPS, where one of these flags goes from clear to set (R32). -/
def loopsRaised (k : Link) (fs : List LoopFlag) : List Cause := if fs.all (hasFlag k.flags) then [] else [.loops]

/-- The part with one link made `k`, these flags added to the flags the link held, and LOOPS raised where one of them is
new: what is left of an event on a link before its passing is handed on. -/
def State.withLink (s : State) (l : LinkNo) (k : Link) (fs : List LoopFlag) : State :=
  { s with
    links := s.links.set l { k with flags := addFlags (s.link l).flags fs },
    report := { s.report with causes := (loopsRaised (s.link l) fs).foldl addCause s.report.causes } }

/-- One link became `k` with these flags added to the flags it held, and nothing else changed but the reporting unit. -/
def LinkEvent (s t : State) (l : LinkNo) (k : Link) (fs : List LoopFlag) : Prop :=
  t.time = s.time ∧ OtherLinks s t l ∧ t.link l = { k with flags := addFlags (s.link l).flags fs } ∧
  t.circuit = s.circuit ∧ KeepsRace s t ∧ KeepsQueue s t ∧ Reports s t (loopsRaised (s.link l) fs)

/-- A report is received: framing is present and the role is not OFF (R23, R27). -/
abbrev Link.hears (k : Link) : Prop := k.framing ≠ none ∧ k.role ≠ .off

/-- A link as a delimiter finds it: framing that is present has its expiry moved to 1,000 microseconds from now, in every
role (R23); the delimiter that ends a report is one (R170). -/
def Link.heard (k : Link) (now : Nat) : Link := { k with framing := k.framing.map fun _ => now + 1000 }

/-- A link that left LIVE, but for its flags (R24, R26). -/
def Link.afterLive (k : Link) (next : LinkState) (now : Nat) : Link :=
  { k with state := next, silenceExpiry := none, outage := some { start := now, stop := none } }

/-- A link after a restarting report, but for its flags: LIVE, with a new silence expiry; out of SILENT its outage ends
(R24 to R26). -/
def Link.afterRestart (k : Link) (now : Nat) : Link :=
  { k with
    state := .live, silenceExpiry := some (now + k.settings.silence * 1000),
    outage := if k.state = .silent then k.outage.map fun o => { o with stop := some (o.stop.getD now) } else k.outage }

/-- A link after any valid report, which restarts it in TRAFFIC mode (R25, R27). -/
def Link.afterValid (k : Link) (now : Nat) : Link :=
  if k.settings.liveness = .traffic then k.afterRestart now else k

/-- The flag a valid report sets by restarting a SILENT link in TRAFFIC mode. -/
def Link.validFlags (k : Link) : List LoopFlag :=
  if k.settings.liveness = .traffic ∧ k.state = .silent then [.linkState] else []

/-- The age of a mark number against the full count: (M - m) mod 256 (R28, R30). -/
def ageOf (count m : Nat) : Nat := (count + 256 - m) % 256

/-- The age is beyond the link's maximum hit age, or beyond the full count (R28, R30). -/
def tooOld (k : Link) (count m : Nat) : Bool :=
  decide (k.settings.maxAge < ageOf count m) || decide (count < ageOf count m)

/-- The time of a hit that is not too old, 0 where it would be below 0 (R30, R31). -/
def hitInstant (k : Link) (count m offset : Nat) : Nat :=
  (count - ageOf count m) * 10000 + offset - k.settings.latency

/-! ## Passings that close -/

/-- The OPEN entry of a code is due to close with hits enough to be handed on (R42). -/
def PassingDue (s : State) (l : LinkNo) (code : Nat) (p : OpenPassing) : Prop :=
  (s.link l).passings.find code = some (.passing p) ∧ p.expiry ≤ s.now ∧ (s.link l).settings.minHits ≤ p.count

/-- What the close of a passing leaves of the part outside the records, the unknown list, the order and the session:
its entry has left its link's table, and nothing else moved. -/
def PassingGone (s t : State) (l : LinkNo) (code : Nat) : Prop :=
  t.time = s.time ∧ OtherLinks s t l ∧ t.link l = { s.link l with passings := (s.link l).passings.remove code } ∧
  t.circuit = s.circuit ∧ KeepsQueue s t ∧ KeepsPort s t ∧ t.table.index = s.table.index ∧
  t.table.slotLimit = s.table.slotLimit

/-- A record after a passing at its close expiry resolves to it: the last sighting is the passing's, unless the one
held is later (R69, R44). -/
def Record.seen (r : Record) (l : LinkNo) (p : OpenPassing) : Record :=
  { r with
    sighting := if ∃ x ∈ r.sighting, p.time < x.time then r.sighting
      else some { link := l, time := p.time, quality := if p.saturated then .saturated else .good } }

/-- A passing due to close resolves to a record, in a session state that scores passings (R68, R70). -/
def PassingOf (s : State) (l : LinkNo) (code slot : Nat) (p : OpenPassing) (r : Record) : Prop :=
  s.settled ∧ s.table.legal ∧ PassingDue s l code p ∧ s.table.index.find code = some slot ∧
  s.record? slot = some r ∧ (s.session.phase = .green ∨ s.session.phase = .caution ∨ s.session.phase = .chequered)

/-- A due passing on a LINE link at a position of the line map, for a RUNNING record whose last line position is `q`. -/
def LinePassing (s : State) (l : LinkNo) (code slot : Nat) (p : OpenPassing) (r : Record) (pos q : Nat) : Prop :=
  PassingOf s l code slot p r ∧ (s.link l).role = .line ∧ (s.link l).linePos = some pos ∧ pos < s.lineCount ∧
  r.state = .running ∧ r.lastPos = some q ∧ q < s.lineCount ∧ r.sized s.lineCount

/-- What a passing that is scored or rejected keeps: only the record it is for changed in more than its place. -/
def Scored (s t : State) (l : LinkNo) (code slot : Nat) : Prop :=
  PassingGone s t l code ∧ KeepsIndex s t ∧ OthersOnlyPlaced s t slot ∧ t.orderAgrees ∧ Follows s t []

/-! ## Line scoring, in the words of 05 -/

/-- The reference time of 5.2: the last line passing time, or without one the latest scored time. -/
def Record.since (r : Record) : Nat := r.lastTime.getD (r.latest.getD 0)

/-- The step count of a passing at `p` from `q`, a whole lap where it comes round to the same position (R81). -/
def stepCount (lines q p : Nat) : Nat := if p = q then lines else (p + lines - q) % lines

/-- A passing at the last line position sooner than the echo guard after the reference time (R81). -/
def isEcho (s : State) (r : Record) (q p t : Nat) : Prop :=
  p = q ∧ (t : Int) - (r.since : Int) < (((s.session.setup.map (·.echoGuard)).getD 0 * 1000000 : Nat) : Int)

/-- A passing sooner than the minimum times of the sectors it spans, or, without a last line passing time, before the
latest scored time (R82). -/
def isTooSoon (s : State) (r : Record) (q p t : Nat) : Prop :=
  (t : Int) - (r.since : Int) <
    if r.lastTime = none then 0
    else ((((List.range (stepCount s.lineCount q p)).map fun i =>
      s.circuit.sectorMin.toList.getD ((q + i) % s.lineCount) 0).sum : Nat) : Int)

/-- The loop at a position is excused over an interval: an outage of its link, or a suspension, touches it (R85), or an
outage that opened at this very instant, before the passing was taken (R101; against R85's reading of its start, log 29). -/
def loopExcused (s : State) (j a b : Nat) : Prop :=
  (∃ k o, s.linkAt j = some k ∧ k.outage = some o ∧ (o.start ≤ b ∨ o.start = s.now) ∧ a ≤ o.stop.getD b) ∨
  ∃ o ∈ s.session.suspension, o.start ≤ b ∧ a ≤ o.stop.getD b

/-- The entry the sectors of a stretch of `n` steps from `q` receive: the time of a single step, UNTIMED without a time
to measure from; over more, EXCUSED when every loop between is excused and MISSED otherwise (R84, R86). -/
def SpanEntry (s : State) (r : Record) (q n t : Nat) (e : SectorEntry) : Prop :=
  (n = 1 → e = match r.lastTime with
    | some u => .timed (min (t - u) 4294967295)
    | none => .untimed) ∧
  (n ≠ 1 → (e = .excused ∧ ∀ i, i < n - 1 → loopExcused s ((q + 1 + i) % s.lineCount) r.since t) ∨
    (e = .missed ∧ ∃ i, i < n - 1 ∧ ¬ loopExcused s ((q + 1 + i) % s.lineCount) r.since t))

/-- A sector list with the sectors from `lo` up to `hi` given one entry. -/
def spanned (xs : List SectorEntry) (lo hi : Nat) (e : SectorEntry) : List SectorEntry :=
  xs.mapIdx fun i x => if lo ≤ i ∧ i < hi then e else x

/-- A best lap copies a sector that was timed within range, and no other (R94). -/
def bestEntry (e : SectorEntry) : Option Nat :=
  match e with
  | .timed t => if t = 4294967295 then none else some t
  | _ => none

/-- The best lap after a lap: a lap timed within range that holds no flag replaces it when there is none, or when it is
the faster (R93, R94). -/
def bestAfter (held : Option BestLap) (x : LastLap) (setAt : Nat) : Option BestLap :=
  match x.time with
  | .timed t =>
    if t ≠ 4294967295 ∧ x.flags = 0#4 ∧ ∀ b ∈ held, t < b.time then
      some { time := t, number := x.number, setTime := setAt, sectors := x.sectors.map bestEntry }
    else held
  | .unseen | .untimed => held

/-- The best sectors after a lap without CAUTION or SUSPENDED: each the lesser of what was held and what the lap timed
(R93, R95). -/
def bestSectorsAfter (held : List (Option Nat)) (x : LastLap) : List (Option Nat) :=
  if hasLap x.flags .caution || hasLap x.flags .suspended then held
  else List.zipWith (fun b e => match bestEntry e, b with
    | some t, some u => some (min t u)
    | some t, none => some t
    | none, b => b) held x.sectors

/-- A delta within its range (R96). -/
def inDeltaRange (d : Int) : Int := max (-2147483647) (min d 2147483647)

/-- The change of sign the delta direction names, between two deltas of one lap (R98). -/
def signChange (dir : DeltaDirection) (a b : Int) : Bool :=
  (decide (0 ≤ a) && decide (b < 0) && (decide (dir = .toAhead) || decide (dir = .both))) ||
  (decide (a < 0) && decide (0 ≤ b) && (decide (dir = .toBehind) || decide (dir = .both)))

/-- Race elapsed at a time (R91). -/
def elapsedIn (s : State) (t : Nat) : Nat := t - (s.session.greenTime.getD 0 + s.session.totalSuspended)

/-! ## Sessions, in the words of 08 -/

/-- Every record changed at most its place in the order, and no slot became FREE or taken. -/
def EveryOnlyPlaced (s t : State) : Prop :=
  ∀ n, match s.record? n, t.record? n with
    | some r, some r' => OnlyPlaced r r'
    | none, none => True
    | _, _ => False

/-- Each record in RUNNING or PIT carries one more flag on its current lap; no other field or record changed (R135,
R138). -/
def FlagsLaps (s t : State) (f : LapFlag) : Prop :=
  ∀ n, t.record? n = (s.record? n).map fun r =>
    if r.state = .running ∨ r.state = .pit then { r with lapFlags := addLap r.lapFlags f } else r

/-- The session CLOSED: no close-timeout expiry, the lock released (R142). -/
def Session.shut (c : Session) : Session := { c with phase := .closed, closeExpiry := none, locked := false }

/-- The session CHEQUERED, with its close timeout set (R141). -/
def Session.chequer (c : Session) (now : Nat) (cause : ChequerCause) (slot : Option Nat) : Session :=
  { c with
    phase := .chequered, chequerTime := some now, chequerCause := some cause, chequerSlot := slot,
    finishPending := false, timeLimitExpiry := none,
    closeExpiry := some (now + (c.setup.map (·.closeTimeout)).getD 0 * 60000000) }

/-- The session after its open suspension ends, in the state it resumes (R138). -/
def Session.unsuspend (c : Session) (now : Nat) (back : Phase) : Session :=
  { c with
    phase := back, suspension := c.suspension.map fun p => { p with stop := some now },
    totalSuspended := c.totalSuspended + (now - (c.suspension.map (·.start)).getD now), resumeState := none }

/-- No record is left in RUNNING or PIT. -/
def FieldIn (s : State) : Prop := ∀ n r, s.record? n = some r → r.state ≠ .running ∧ r.state ≠ .pit

/-- The session `c`, closed at once where it is CHEQUERED with no record in RUNNING or PIT (R142). -/
def EndsAs (t : State) (c : Session) : Prop := (FieldIn t → t.session = c.shut) ∧ (¬ FieldIn t → t.session = c)

/-! ## The order, in the words of R117 and R118 -/

/-- Progress round the lap: 0 when the record is not started or has no line position, otherwise the position plus 1
(R117). -/
def Record.round (r : Record) : Nat :=
  match r.started, r.lastPos with
  | true, some p => p + 1
  | true, none | false, _ => 0

/-- The time a record is placed by: the latest scored time; of a FINISHED record the finish time, or without one the latest
scored time, with the penalty added (R117). -/
def Record.raceTime (r : Record) : Nat :=
  match r.state, r.finish with
  | .finished, some f => f + r.penalty
  | .finished, none => r.latest.getD 0 + r.penalty
  | .enrolled, _ | .running, _ | .pit, _ | .retired, _ | .excluded, _ => r.latest.getD 0

/-- R117: more laps, then more progress, then the earlier key time, then the lower slot. -/
def aheadInRace (a : Record) (n : Nat) (b : Record) (m : Nat) : Prop :=
  b.laps < a.laps ∨ a.laps = b.laps ∧
    (b.round < a.round ∨ a.round = b.round ∧
      (a.raceTime < b.raceTime ∨ a.raceTime = b.raceTime ∧ n < m))

/-- R118: a best lap before none, then the lower time and the earlier set time, then more laps, then the lower slot. -/
def aheadOnBest (a : Record) (n : Nat) (b : Record) (m : Nat) : Prop :=
  let tied : Prop := b.laps < a.laps ∨ a.laps = b.laps ∧ n < m
  match a.bestLap, b.bestLap with
  | some x, some y =>
    x.time < y.time ∨ x.time = y.time ∧ (x.setTime < y.setTime ∨ x.setTime = y.setTime ∧ tied)
  | some _, none => True
  | none, some _ => False
  | none, none => tied

/-- The key of the session type (R117, R118). -/
def aheadUnder (ty : SessionType) (a : Record) (n : Nat) (b : Record) (m : Nat) : Prop :=
  match ty with
  | .race => aheadInRace a n b m
  | .practice | .qualifying => aheadOnBest a n b m

/-! ## Completions and the chequer (R99, R100, R140, R141) -/

/-- The record `r` in a slot stands ahead of every other record of the order (R116, R117). -/
def Leads (s : State) (slot : Nat) (r : Record) : Prop :=
  ∀ n o, n ≠ slot → s.record? n = some o → o.state = .running ∨ o.state = .pit ∨ o.state = .finished →
    aheadInRace r slot o n

/-- A completion by a record that now stands as `r` is made in, or brings, the CHEQUERED session `c` (R99, R140): it is
CHEQUERED already; or in a RACE the laps reach the limit; or FINISH_PENDING is set and the record leads. -/
def State.chequeredBy (s : State) (slot : Nat) (r : Record) (c : Session) : Prop :=
  let race := ∀ x ∈ s.session.setup, x.type = .race
  let limit := ∃ x ∈ s.session.setup, x.lapLimit ≠ 0 ∧ x.lapLimit ≤ r.laps
  s.session.phase = .chequered ∧ c = s.session ∨
  s.session.phase ≠ .chequered ∧ race ∧ limit ∧ c = s.session.chequer s.now .lapLimit (some slot) ∨
  s.session.phase ≠ .chequered ∧ race ∧ ¬ limit ∧ s.session.finishPending = true ∧ Leads s slot r ∧
    c = s.session.chequer s.now .leader (some slot)

/-- A record FINISHED by a passing at `t`: no lap in progress (R100). -/
def Record.flagged (r : Record) (lines : Nat) (finish : Option Nat) (t : Nat) : Record :=
  { r with
    state := .finished, finish := finish, latest := some t, lapStart := none,
    sectors := List.replicate lines .pending, lapFlags := 0#4, notices := addNotice r.notices .finished }

/-- What an event in which records may have moved more than once tells the reporting unit: as `Follows`, but a record that
came back to where it was may be in the changed-slot set, and ORDER raised with the list as it was. -/
def FollowsMoves (s t : State) : Prop :=
  (∀ n, n ∈ s.report.changed ∨ t.record? n ≠ s.record? n → n ∈ t.report.changed) ∧
  (∀ c : Cause, match c with
    | .records => hasCause t.report.causes c = decide (t.report.changed ≠ [])
    | .order => hasCause s.report.causes c = true ∨ t.order.list ≠ s.order.list → hasCause t.report.causes c = true
    | .session => hasCause t.report.causes c =
        (hasCause s.report.causes c || decide (t.sessionItems ≠ s.sessionItems))
    | .loops | .time | .unknown => hasCause t.report.causes c = hasCause s.report.causes c) ∧
  LatchFollows s t ∧ KeepsTimer s t

/-- What the close of a passing leaves when it finishes the record as `r`, but for the lead table: the session is `c`,
closed at once where the field is in, and every other record at most moved. -/
def Finishes (s t : State) (l : LinkNo) (code slot : Nat) (r : Record) (c : Session) : Prop :=
  PassingGone s t l code ∧ KeepsIndex s t ∧ OthersOnlyMoved s t slot ∧ t.orderAgrees ∧ FollowsMoves s t ∧ EndsAs t c ∧
  ∃ x, t.record? slot = some x ∧ OnlyMoved r x

/-- The close of a passing that finishes the record as `r` without a crossing of the line. -/
def FinishesAs (s t : State) (l : LinkNo) (code slot : Nat) (r : Record) (c : Session) : Prop :=
  Finishes s t l code slot r c ∧ KeepsLead s t

/-! ## The pit lane, in the words of 06 -/

/-- A rejected passing of the pit monitor: the sighting, the rejection and its notice, and nothing else (R72, R105). -/
def Rejects (s t : State) (l : LinkNo) (code slot : Nat) (p : OpenPassing) (r : Record) (why : Reason) : Prop :=
  PassingGone s t l code ∧ KeepsIndex s t ∧ t.order = s.order ∧ t.session = s.session ∧ Follows s t [] ∧
  (∀ n, n ≠ slot → t.record? n = s.record? n) ∧
  t.record? slot = some { r.seen l p with
    rejection := some { link := l, time := p.time, reason := why }, notices := addNotice r.notices .rejected }

/-- A pit-out passing within the echo guard of the exit of the previous stop (R111). -/
def exitEchoed (s : State) (r : Record) (t : Nat) : Prop :=
  ∃ y ∈ r.pit, ∃ u ∈ y.exit,
    (t : Int) - (u : Int) < (((s.session.setup.map (·.echoGuard)).getD 0 * 1000000 : Nat) : Int)

/-- b, the number of bypassed positions (R103). -/
def State.bypassed (s : State) (c : PitSettings) : Nat := (c.outBefore + s.lineCount - c.inAfter - 1) % s.lineCount

/-- The rejoin position (R103). -/
def State.rejoinAt (s : State) (c : PitSettings) : Nat := (c.outBefore + s.lineCount - 1) % s.lineCount

/-- Position 0 is bypassed (R103). -/
abbrev skipsLine (c : PitSettings) : Prop := 1 ≤ c.outBefore ∧ c.outBefore < c.inAfter

/-- The sectors of a lap with the pit sectors of the entry's lap given one entry (R107). -/
def State.pitSectors (s : State) (c : PitSettings) (xs : List SectorEntry) (e : SectorEntry) : List SectorEntry :=
  spanned xs c.inAfter (min (c.inAfter + s.bypassed c + 1) s.lineCount) e

/-- One more lap, held at 65,535 (R87). -/
def Record.oneMore (r : Record) : Nat := min (r.laps + 1) 65535

/-- The flags of a lap that starts (R92). -/
def State.newFlags (s : State) (out : Bool) : Mask 4 :=
  (if s.session.phase = .caution then 0b0001#4 else 0#4) ||| (if out then 0b1000#4 else 0#4)

/-- A record whose lap has ended as `x` at the time `t`: the count, the last lap, the bests, NEW_BEST where it is due, LAP
(R87, R88, R93 to R95). -/
def Record.ended (r : Record) (x : LastLap) (t : Nat) : Record :=
  let best := bestAfter r.bestLap x t
  { r with
    laps := x.number, started := true, lastLap := some x, bestLap := best,
    bestSectors := bestSectorsAfter r.bestSectors x,
    notices := addNotice (if best = r.bestLap then r.notices else addNotice r.notices .newBest) .lap }

/-- The record once the loops left unseen before a pit entry at `t` are settled (R106): nothing at pit_in_after or without
a line position; before it, the sectors up to it take their status; beyond it, the lap completes with position 0 unseen and
the next one is covered up to it. -/
def Settles (s : State) (r : Record) (c : PitSettings) (t : Nat) (r' : Record) : Prop :=
  match r.lastPos with
  | none => r' = r
  | some q =>
    if q = c.inAfter then r' = r
    else if q < c.inAfter then
      ∃ e, SpanEntry s r q (c.inAfter - q + 1) t e ∧
        r' = { r with
          sectors := spanned r.sectors q c.inAfter e, lastPos := some c.inAfter, lastTime := none, delta := none }
    else
      ∃ e, SpanEntry s r q (c.inAfter + s.lineCount - q + 1) t e ∧
        r' = { r.ended { number := r.oneMore, time := .unseen, flags := r.lapFlags,
                         sectors := spanned r.sectors q s.lineCount e } t with
          lapStart := none, sectors := spanned (List.replicate s.lineCount .pending) 0 c.inAfter e,
          lapFlags := s.newFlags (hasLap r.lapFlags .pit), lastPos := some c.inAfter, lastTime := none, delta := none }

/-- The record in PIT after its entry (R104, R106, R107). -/
def Record.entered (r : Record) (s : State) (c : PitSettings) (entry : Option Nat) (t : Nat) : Record :=
  { r with
    sectors := s.pitSectors c r.sectors .bypassed,
    pit := some { entry := entry, exit := none, transit := none, speed := none, speeding := false, isOpen := true },
    pitStops := min (r.pitStops + 1) 255, lapFlags := addLap r.lapFlags .pit, state := .pit, latest := some t }

/-- A lap completes at the rejoin (R110). -/
abbrev Record.lapsAtRejoin (r : Record) (c : PitSettings) : Prop := skipsLine c ∧ r.lastPos = some c.inAfter

/-- The record back on the track after an exit, or an inferred exit without a time, in a session that is not CHEQUERED
(R110): where the pit lane skips the line the lap completes and the next one starts at the exit. -/
def Record.rejoined (r : Record) (s : State) (c : PitSettings) (exit : Option Nat) : Record :=
  let lap : LastLap :=
    { number := r.oneMore, flags := r.lapFlags, sectors := r.sectors,
      time := match exit, r.lapStart with
        | none, _ => .unseen
        | some t, some u => .timed (min (t - u) 4294967295)
        | some _, none => .untimed }
  let delta : Option Int := match lap.time, r.bestLap with
    | .timed d, some b => some (inDeltaRange ((d : Int) - (b.time : Int)))
    | _, _ => none
  let crosses := r.lastTime.isSome && r.delta.any fun a => delta.any fun b => signChange s.deltaDirection a b
  let r' := r.ended lap (exit.getD 0)
  let laps : Record := { r' with
    delta := delta, notices := if crosses then addNotice r'.notices .deltaCross else r'.notices,
    lapStart := exit, sectors := spanned (List.replicate s.lineCount .pending) 0 c.outBefore .bypassed,
    lapFlags := s.newFlags true,
    elapsed := match exit with | some t => some (elapsedIn s t) | none => r.elapsed }
  { (if r.lapsAtRejoin c then laps else { r with delta := none }) with
    state := .running, lastPos := some (s.rejoinAt c), lastTime := none,
    latest := match exit with | some t => some t | none => r.latest }

/-- The record with its stop undone (R113). -/
def Record.stopUndone (r : Record) (s : State) (c : PitSettings) (l : LinkNo) (t : Nat) : Record :=
  { r with
    pitStops := r.pitStops - 1, pit := none, lapFlags := r.lapFlags &&& 0b1011#4,
    sectors := s.pitSectors c r.sectors .pending, state := .running,
    rejection := some { link := l, time := t, reason := .pitCancelled }, notices := addNotice r.notices .rejected }

/-- The state a repair leaves before the passing that brought it is worked on further: one record is as the repair wrote
it, in its place in the order; nothing else moved but the places of the others. -/
def Mends (s s' : State) (slot : Nat) (r : Record) : Prop :=
  KeepsTrackside s s' ∧ KeepsQueue s s' ∧ s'.report = s.report ∧ s'.session = s.session ∧ KeepsIndex s s' ∧
  KeepsLead s s' ∧ s'.orderAgrees ∧ OthersOnlyPlaced s s' slot ∧ ∃ x, s'.record? slot = some x ∧ OnlyPlaced r x

/-- The event `c` at `s` is a repair that leaves `s'` followed by the event `c` at `s'`: they end alike but for the
reporting unit, which is told of both at once. -/
def MendsThen (c : Instr) (s : State) (slot : Nat) (r : Record) : Prop :=
  ∃ s' t u, Mends s s' slot r ∧ exec c s = .next t ∧ exec c s' = .next u ∧
    t = { u with report := t.report } ∧ KeepsPort s t ∧ KeepsTimer s t ∧ LatchFollows s t ∧
    (∀ n, n ∈ t.report.changed ↔ n ∈ u.report.changed ∨ s'.record? n ≠ s.record? n) ∧
    ∀ x, hasCause t.report.causes x = (hasCause s.report.causes x || match x with
      | .records => decide (t.report.changed ≠ [])
      | .order => hasCause u.report.causes .order || decide (s'.order.list ≠ s.order.list)
      | .session => decide (t.sessionItems ≠ s.sessionItems)
      | .loops | .time | .unknown => false)

/-! ## Replies, in the words of R169 and R171 -/

/-- A mask whose bit `i` is the `i`-th of these, from bit 0 (R169). -/
def maskOf (bs : List Bool) : Nat := (bs.mapIdx fun i b => if b then 2 ^ i else 0).sum

/-- A flag listed as "set or clear": set 00h, clear 01h (R169, log 9). -/
def setOrClear (b : Bool) : Byte := if b then 0x00#8 else 0x01#8

/-- The role of a link, in the order of 02's table. -/
def roleByte : Role → Byte
  | .off => 0x00#8 | .line => 0x01#8 | .pitIn => 0x02#8 | .pitOut => 0x03#8

/-- The session states, IDLE 00h to ROLLING 07h (R169). -/
def phaseByte : Phase → Byte
  | .idle => 0x00#8 | .armed => 0x01#8 | .green => 0x02#8 | .caution => 0x03#8
  | .suspended => 0x04#8 | .chequered => 0x05#8 | .closed => 0x06#8 | .rolling => 0x07#8

/-- The session types, PRACTICE 00h to RACE 02h (R169). -/
def typeByte : SessionType → Byte
  | .practice => 0x00#8 | .qualifying => 0x01#8 | .race => 0x02#8

/-- The record states, FREE 00h to EXCLUDED 06h (R169). -/
def recStateByte : RecState → Byte
  | .enrolled => 0x01#8 | .running => 0x02#8 | .pit => 0x03#8 | .finished => 0x04#8 | .retired => 0x05#8
  | .excluded => 0x06#8

/-- The time bytes of an entry, with the over-range mark on the top value (R84, R171). -/
def timeEntry (t : Nat) : List Byte := [if t = 4294967295 then 0x01#8 else 0x00#8] ++ beBytes 4 t

/-- A sector entry (R171). -/
def sectorEntry : SectorEntry → List Byte
  | .timed t => timeEntry t
  | .pending => [0x02#8, 0x00#8, 0x00#8, 0x00#8, 0x00#8]
  | .missed => [0x03#8, 0x00#8, 0x00#8, 0x00#8, 0x00#8]
  | .excused => [0x04#8, 0x00#8, 0x00#8, 0x00#8, 0x00#8]
  | .bypassed => [0x05#8, 0x00#8, 0x00#8, 0x00#8, 0x00#8]
  | .untimed => [0x06#8, 0x00#8, 0x00#8, 0x00#8, 0x00#8]

/-- A best sector, absent under its own tag (R171). -/
def bestSectorEntry : Option Nat → List Byte
  | some t => timeEntry t
  | none => [0x07#8, 0x00#8, 0x00#8, 0x00#8, 0x00#8]

/-- The form of a gap and its value (R171). -/
def gapEntry : Option Gap → Nat × Nat
  | some (.time t) => (0, t)
  | some (.lapsDown n) => (1, n)
  | none => (0, 0)

/-! ## Arguments, in the words of R169: which bytes spell which arguments, each within its range -/

/-- A number in one byte (R169). -/
def inByte (n : Nat) : Byte := BitVec.ofNat 8 n

/-- The nine settings of a link within their ranges (02, Settings; R17). -/
abbrev settingsWithin (c : LinkSettings) : Prop :=
  c.latency ≤ 4095 ∧ 1 ≤ c.threshold ∧ c.threshold ≤ 254 ∧ c.threshold ≤ c.saturation ∧ c.saturation ≤ 255 ∧
  5 ≤ c.closeGap ∧ c.closeGap ≤ 250 ∧ 100 ≤ c.maxDwell ∧ c.maxDwell ≤ 5000 ∧ 1 ≤ c.minHits ∧ c.minHits ≤ 8 ∧
  1 ≤ c.maxAge ∧ c.maxAge ≤ 255 ∧ 10 ≤ c.silence ∧ c.silence ≤ 2550 ∧ c.silence % 10 = 0

/-- SELECT SOURCE (R12). -/
abbrev SpellsSource (bs : List Byte) (x : Source) : Prop :=
  bs = [match x with | .internal => 0x00#8 | .reference => 0x01#8]

/-- SET LOOP (R17). The line position of a link that is not LINE is not read, and may be any byte. -/
abbrev SpellsSetLoop (bs : List Byte) (a : SetLoopArgs) : Prop :=
  (a.role = .line → a.linePos ≤ 7) ∧ a.linePos ≤ 255 ∧ settingsWithin a.settings ∧
  bs = [inByte a.link.val, roleByte a.role, inByte a.linePos] ++ beBytes 2 a.settings.latency ++
    [inByte a.settings.threshold, inByte a.settings.saturation, inByte a.settings.closeGap] ++
    beBytes 2 a.settings.maxDwell ++ [inByte a.settings.minHits, inByte a.settings.maxAge] ++
    beBytes 2 a.settings.silence ++ [match a.settings.liveness with | .mark => 0x00#8 | .traffic => 0x01#8]

/-- SET SECTOR (R21). -/
abbrev SpellsSetSector (bs : List Byte) (a : SetSectorArgs) : Prop :=
  a.minimum ≤ 600000000 ∧ bs = [inByte a.sector.val] ++ beBytes 4 a.minimum

/-- SET PIT (R22). -/
abbrev SpellsSetPit (bs : List Byte) (a : PitSettings) : Prop :=
  a.inAfter ≤ 7 ∧ a.outBefore ≤ 7 ∧ a.inAfter ≠ a.outBefore ∧ 1 ≤ a.length ∧ a.length ≤ 2000000 ∧ 1000 ≤ a.limit ∧
  a.limit ≤ 40000 ∧ bs = [inByte a.inAfter, inByte a.outBefore] ++ beBytes 4 a.length ++ beBytes 2 a.limit

/-- READ LOOP (R34). -/
abbrev SpellsLink (bs : List Byte) (l : LinkNo) : Prop := bs = [inByte l.val]

/-- CLEAR LOOP FLAGS (R33): one link or all, then any of the ten flags. -/
abbrev SpellsClearFlags (bs : List Byte) (a : ClearFlagsArgs) : Prop :=
  bs = (match a.link with | some l => [0x00#8, inByte l.val] | none => [0x01#8]) ++ beBytes 2 a.mask.toNat

/-- A transponder code, a car number, a class, a grid position within their ranges (R53). -/
abbrev codeWithin (n : Nat) : Prop := 1 ≤ n ∧ n ≤ 16777214
abbrev carWithin (n : Nat) : Prop := 1 ≤ n ∧ n ≤ 999
abbrev classWithin (n : Nat) : Prop := n ≤ 15
abbrev gridWithin (n : Nat) : Prop := 1 ≤ n ∧ n ≤ 128

/-- ENROL (R61). -/
abbrev SpellsEnrol (bs : List Byte) (a : EnrolArgs) : Prop :=
  codeWithin a.code ∧ carWithin a.car ∧ classWithin a.cls ∧ (∀ g ∈ a.grid, gridWithin g) ∧
  bs = [if a.grid.isSome then 0x01#8 else 0x00#8] ++ beBytes 3 a.code ++ beBytes 2 a.car ++ [inByte a.cls] ++
    a.grid.toList.map inByte

/-- The grid position an AMEND gives. -/
def givenGrid : GridChange → Option Nat
  | .give g => some g
  | .keep | .remove => none

/-- AMEND (R62): the mask names what follows the slot. -/
abbrev SpellsAmend (bs : List Byte) (a : AmendArgs) : Prop :=
  1 ≤ a.slot ∧ a.slot ≤ 128 ∧ (∀ c ∈ a.code, codeWithin c) ∧ (∀ c ∈ a.car, carWithin c) ∧ (∀ c ∈ a.cls, classWithin c) ∧
  (∀ g ∈ givenGrid a.grid, gridWithin g) ∧
  bs = [inByte (maskOf [a.code.isSome, a.car.isSome, a.cls.isSome, (givenGrid a.grid).isSome,
      decide (a.grid = .remove)]), inByte a.slot] ++
    a.code.toList.flatMap (beBytes 3) ++ a.car.toList.flatMap (beBytes 2) ++ a.cls.toList.map inByte ++
    (givenGrid a.grid).toList.map inByte

/-- One slot (RETIRE, REINSTATE, EXCLUDE, RELEASE), or the slot limit of SET CAPACITY (R60). -/
abbrev SpellsSlot (bs : List Byte) (n : Nat) : Prop := 1 ≤ n ∧ n ≤ 128 ∧ bs = [inByte n]

/-- ADJUST (R127), its lap delta in two's complement. -/
abbrev SpellsAdjust (bs : List Byte) (a : AdjustArgs) : Prop :=
  1 ≤ a.slot ∧ a.slot ≤ 128 ∧ -255 ≤ a.laps ∧ a.laps ≤ 255 ∧ a.penalty ≤ 4294967295 ∧
  bs = [inByte a.slot] ++ beBytes 2 (a.laps % 65536).toNat ++ beBytes 4 a.penalty

/-- A clearing choice: that 01h clears is log 21. -/
def clearByte (clear : Bool) : Byte := if clear then 0x01#8 else 0x00#8

/-- READ RECORD (R67). -/
abbrev SpellsReadRecord (bs : List Byte) (a : ReadRecordArgs) : Prop :=
  match a.who with
  | .slot n => 1 ≤ n ∧ n ≤ 128 ∧ bs = [0x00#8, inByte n, clearByte a.clear]
  | .code n => codeWithin n ∧ bs = [0x01#8] ++ beBytes 3 n ++ [clearByte a.clear]
  | .car n => carWithin n ∧ bs = [0x02#8] ++ beBytes 2 n ++ [clearByte a.clear]

/-- DISMISS UNKNOWN (R76). -/
abbrev SpellsDismiss (bs : List Byte) (a : DismissArgs) : Prop :=
  (∀ c ∈ a.code, codeWithin c) ∧
  bs = (match a.code with | some c => [0x00#8] ++ beBytes 3 c | none => [0x01#8]) ++ [clearByte a.clearFull]

/-- READ ORDER (R128). -/
abbrev SpellsReadOrder (bs : List Byte) (a : ReadOrderArgs) : Prop :=
  1 ≤ a.first ∧ a.first ≤ 128 ∧ 1 ≤ a.count ∧ a.count ≤ 32 ∧ bs = [inByte a.first, inByte a.count]

/-- SESSION SETUP (R130): outside a RACE, no lap limit and some time limit. -/
abbrev SpellsSetup (bs : List Byte) (a : SessionSetup) : Prop :=
  a.lapLimit ≤ 9999 ∧ a.timeLimit ≤ 1440 ∧ 1 ≤ a.closeTimeout ∧ a.closeTimeout ≤ 60 ∧ 1 ≤ a.echoGuard ∧
  a.echoGuard ≤ 60 ∧ (a.type ≠ .race → a.lapLimit = 0 ∧ a.timeLimit ≠ 0) ∧
  bs = [typeByte a.type] ++ beBytes 2 a.lapLimit ++ beBytes 2 a.timeLimit ++
    [inByte a.closeTimeout, inByte a.echoGuard,
     match a.delta with | .off => 0x00#8 | .toAhead => 0x01#8 | .toBehind => 0x02#8 | .both => 0x03#8]

/-- ROLLOVER (R148): a type and any of the three members of the carry set. -/
abbrev SpellsRollover (bs : List Byte) (a : RolloverArgs) : Prop :=
  bs = [typeByte a.type, inByte (maskOf [a.carry.bests, a.carry.gridFromOrder, a.carry.keepExcluded])]

/-- SET MODERATION (R165). -/
abbrev SpellsModeration (bs : List Byte) (n : Nat) : Prop := n ≤ 100 ∧ bs = [inByte n]

/-- The argument bytes a request of a kind admits; any other bytes are BAD_ARGUMENT (R156 step 3 and the rule of each
request). -/
def Admits (k : RequestKind) (bs : List Byte) : Prop :=
  match k with
  | .selectSource => ∃ x, SpellsSource bs x
  | .setLoop => ∃ a, SpellsSetLoop bs a
  | .setSector => ∃ a, SpellsSetSector bs a
  | .setPit => ∃ a, SpellsSetPit bs a
  | .readLoop => ∃ l, SpellsLink bs l
  | .clearLoopFlags => ∃ a, SpellsClearFlags bs a
  | .enrol => ∃ a, SpellsEnrol bs a
  | .amend => ∃ a, SpellsAmend bs a
  | .retire | .reinstate | .exclude | .release | .setCapacity => ∃ n, SpellsSlot bs n
  | .adjust => ∃ a, SpellsAdjust bs a
  | .readRecord => ∃ a, SpellsReadRecord bs a
  | .dismissUnknown => ∃ a, SpellsDismiss bs a
  | .readOrder => ∃ a, SpellsReadOrder bs a
  | .sessionSetup => ∃ a, SpellsSetup bs a
  | .rollover => ∃ a, SpellsRollover bs a
  | .setModeration => ∃ n, SpellsModeration bs n
  | .readTime | .readUnknown | .arm | .green | .caution | .clearCaution | .suspend | .resume | .chequer | .close
  | .haltRollover | .readSession | .readSummary | .readChanges | .acknowledge | .resetTables => bs = []

/-! ## Nothing due -/

/-- An entry of a passing table whose expiry circuit time has reached. -/
def Entry.due (e : Entry) (now : Nat) : Bool :=
  match e with
  | .passing p => decide (p.expiry ≤ now)
  | .guard g => decide (g.expiry ≤ now)

/-- No expiry, mark or absence expiry is due (R2). -/
abbrev State.quiet (s : State) : Prop :=
  s.time.markDue = false ∧ s.time.absenceDue = false ∧ (∀ l, ∀ e ∈ (s.link l).framing, s.now < e) ∧
  (∀ l, s.silenceDue l = false) ∧
  (∀ l, ∀ q ∈ (s.link l).passings, q.2.due s.now = false) ∧ s.timeLimitDue = false ∧
  s.closeTimeoutDue = false ∧ reached s.now s.report.moderationExpiry = false

end Sys2Proof.Machine
end

