-- ==== Sys2Proof/WellFormed.lean ====
section
/-! DEFINITION. Which commands the outside can really bring: reports in range (R27), selections that a
frame can carry (R156, R168), requests whose arguments pass their checks. `exec` gives every other
command a meaning as well (a request with bad arguments is answered BAD_ARGUMENT). -/

namespace Sys2Proof

/-- The arguments of a request pass the checks of R156 step 3 and its own range checks. -/
def RequestKind.argsOk (k : RequestKind) (a : List Byte) : Bool :=
  match k with
  | .selectSource => (parseSource a).isSome
  | .readTime => (parseNone a).isSome
  | .setLoop => (SetLoopArgs.parse a).isSome
  | .setSector => (SetSectorArgs.parse a).isSome
  | .setPit => (PitSettings.parse a).isSome
  | .readLoop => (parseLink a).isSome
  | .clearLoopFlags => (ClearFlagsArgs.parse a).isSome
  | .enrol => (EnrolArgs.parse a).isSome
  | .amend => (AmendArgs.parse a).isSome
  | .retire => (parseSlot a).isSome
  | .reinstate => (parseSlot a).isSome
  | .exclude => (parseSlot a).isSome
  | .release => (parseSlot a).isSome
  | .adjust => (AdjustArgs.parse a).isSome
  | .readRecord => (ReadRecordArgs.parse a).isSome
  | .setCapacity => (parseCapacity a).isSome
  | .readUnknown => (parseNone a).isSome
  | .dismissUnknown => (DismissArgs.parse a).isSome
  | .readOrder => (ReadOrderArgs.parse a).isSome
  | .sessionSetup => (SessionSetup.parse a).isSome
  | .arm => (parseNone a).isSome
  | .green => (parseNone a).isSome
  | .caution => (parseNone a).isSome
  | .clearCaution => (parseNone a).isSome
  | .suspend => (parseNone a).isSome
  | .resume => (parseNone a).isSome
  | .chequer => (parseNone a).isSome
  | .close => (parseNone a).isSome
  | .rollover => (RolloverArgs.parse a).isSome
  | .haltRollover => (parseNone a).isSome
  | .readSession => (parseNone a).isSome
  | .readSummary => (parseNone a).isSome
  | .readChanges => (parseNone a).isSome
  | .acknowledge => (parseNone a).isSome
  | .setModeration => (parseModeration a).isSome
  | .resetTables => (parseNone a).isSome

/-- A command as the outside can bring it, a request with arguments that pass. -/
def Instr.wellFormed (i : Instr) : Bool :=
  match i with
  | .hit _ c _ o _ => codeOk c.toNat && decide (o.toNat ≤ 9999)
  | .closeExpiry _ c => codeOk c
  | .guardRemoval _ c => codeOk c
  | .frameError n => decide (1 ≤ n)
  | .unknownKind k a =>
    (RequestKind.ofCode k.toNat).isNone && decide (k ≠ 0xff#8) && decide (a.length ≤ 32)
  | _ =>
    match i.request? with
    | some q => q.1.argsOk q.2
    | none => true

end Sys2Proof
end

