-- ==== Sys2Proof/Certificates/Slice0/Obligations.lean ====
section
/-! DEFINITION. The statements for the provers. Each docstring names the rule of spec/ it formalises, in whole or in
part, and says where a clause is the model's choice. Requests are stated for a part that is `settled` (what every event
leaves, see OrderKept and ReportingKept) and not building a reply; what a request meets while a reply is being built is
in Replies. -/

open Sys2Proof

open Sys2Proof.Machine

/-! ## The machine -/

/-- One step takes the command at the front of the queue, with the queue's rest (the row's cut; the queue is the
model's, log 1). -/
def Obligations.StepTakesFront : Prop :=
  ∀ (s : State) (c : Instr) (rest : List Instr), s.pending = c :: rest →
    step s = exec c { s with pending := rest }

/-- PIN_RESET gives every block the value its chapter states (the tables "After pin reset" of 01, 02, 03, 04, 07, 08
and 10). The queue and the counter of free draws are the model's own (log 14). -/
def Obligations.PinReset : Prop :=
  ∀ s : State, ∃ t, exec .pinReset s = .next t ∧
    t.time = { now := 0, mark := 0, markLimit := false, source := .internal, mode := .free, trim := 0,
               trimCount := 0, monitor := .absent, goodCount := 0, lastInterval := none, lastEdge := none,
               absence := 0 } ∧
    (∀ l, (t.link l).role = .off ∧ (t.link l).linePos = none ∧
      (t.link l).settings = { latency := 0, threshold := 32, saturation := 224, closeGap := 60, maxDwell := 2000,
                              minHits := 2, maxAge := 50, silence := 500, liveness := .mark } ∧
      (t.link l).framing = none ∧ (t.link l).state = .off ∧ (t.link l).silenceExpiry = none ∧
      (t.link l).outage = none ∧ (t.link l).latestHit = none ∧ (t.link l).noise = none ∧ (t.link l).flags = 0 ∧
      (t.link l).passings = []) ∧
    t.circuit.sectorMin.toList = [0, 0, 0, 0, 0, 0, 0, 0] ∧ t.circuit.pit = none ∧ t.lineCount = 1 ∧
    (∀ n, t.record? n = none) ∧ t.table.index = [] ∧ t.table.unknown = [] ∧ t.table.unknownFull = false ∧
    t.table.slotLimit = 128 ∧ t.order.list = [] ∧ t.order.lead = [] ∧ t.order.highest = none ∧
    t.session = { phase := .idle, setup := none, number := 0, incomplete := false, finishPending := false,
                  locked := false, greenTime := none, greenSource := none, totalSuspended := 0, suspension := none,
                  resumeState := none, timeLimitExpiry := none, chequerTime := none, chequerCause := none,
                  chequerSlot := none, closeExpiry := none, cursor := none } ∧
    t.report.portPhase = .idle ∧ t.report.buffer = .empty ∧ t.report.reply = none ∧ t.report.readFlag = false ∧
    t.report.changed = [] ∧ t.report.causes = 0#6 ∧ t.report.latch = false ∧ t.report.moderation = 2 ∧
    t.report.moderationExpiry = none ∧ t.attn = false ∧ KeepsQueue s t

/-- The state after reset is legal in every block: the invariants below hold there. -/
def Obligations.ResetLegal : Prop :=
  State.reset.time.legal ∧ (∀ l, (State.reset.link l).legal) ∧ State.reset.session.legal ∧ State.reset.settled ∧
  State.reset.table.legal ∧ State.reset.table.unknownLegal

/-! ## Bytes and commands -/

/-- Decode and encode of request frames agree: the frame of a kind with any argument bytes it can carry is read back
as that request with those bytes (part of R156 and R168). -/
def Obligations.RequestFramesDecode : Prop :=
  ∀ (k : RequestKind) (args : List Byte), args.length ≤ 32 →
    (requestFrame k args).length = args.length + 3 ∧ decodeSelection (requestFrame k args) = some (k.command args) ∧
    (k.command args).request? = some (k, args)

/-- Decode and encode of reports agree, with every field at every value it admits (part of R27 and R170), as a frame and
on the line: a reader in step that stands at a delimiter takes the frame's data characters, with their control mark clear,
and its closing delimiter 7Eh as that report alone, and stands at a delimiter again. Data before the first delimiter after
framing is gained is ignored, and while framing is lost two delimiters in succession gain it (part of R23); that data
between the two breaks no succession is the model's reading (log 30). -/
def Obligations.ReportsDecode : Prop :=
  (∀ (i : Instr) (l : LinkNo) (chars : List Byte), i.wellFormed = true → encodeReport i = some (l, chars) →
    decodeReport l chars = some i ∧
    ∀ r : LineReader, r.framed = true → r.frame = some [] →
      r.takeAll l ((chars.map fun b => (0#1 ++ b : BitVec 9)) ++ [0x17e#9]) = (r, [i])) ∧
  ∀ (r : LineReader) (l : LinkNo) (data : List Byte),
    let chars : List LinkChar := data.map fun b => (0#1 ++ b : BitVec 9)
    (r.framed = true → r.frame = none → r.takeAll l chars = (r, []) ∧
      r.takeAll l (chars ++ [0x17e#9]) = ({ r with frame := some [] }, [.framingGained l])) ∧
    (r.framed = false → r.frame = none → r.seen = false →
      r.takeAll l (0x17e#9 :: chars ++ [0x17e#9]) =
        ({ framed := true, seen := false, frame := none }, [.framingGained l]))

/-- The arguments of every request that carries some are read back from their bytes, with every argument at every value
in its range; and the bytes that are read at all are those which spell arguments within their ranges, in the widths, the
order and the codes of R169 (part of R168 and R169, with the ranges of each request's rule). A SET LOOP that is not for LINE
may carry any byte as its line position. That 01h is the clearing choice is the model's reading (log 21). -/
def Obligations.ArgumentsParse : Prop :=
  (∀ x : Source, parseSource (sourceBytes x) = some x) ∧
  (∀ a : SetLoopArgs, a.inRange = true → a.linePos ≤ 255 → SetLoopArgs.parse a.bytes = some a) ∧
  (∀ a : SetSectorArgs, a.inRange = true → SetSectorArgs.parse a.bytes = some a) ∧
  (∀ a : PitSettings, a.inRange = true → PitSettings.parse a.bytes = some a) ∧
  (∀ l : LinkNo, parseLink (linkBytes l) = some l) ∧
  (∀ a : ClearFlagsArgs, ClearFlagsArgs.parse a.bytes = some a) ∧
  (∀ a : EnrolArgs, a.inRange = true → EnrolArgs.parse a.bytes = some a) ∧
  (∀ a : AmendArgs, a.inRange = true → AmendArgs.parse a.bytes = some a) ∧
  (∀ n : Nat, slotOk n = true → parseSlot (slotBytes n) = some n ∧ parseCapacity (slotBytes n) = some n) ∧
  (∀ a : AdjustArgs, a.inRange = true → AdjustArgs.parse a.bytes = some a) ∧
  (∀ a : ReadRecordArgs, a.who.inRange = true → ReadRecordArgs.parse a.bytes = some a) ∧
  (∀ a : DismissArgs, a.code.all codeOk = true → DismissArgs.parse a.bytes = some a) ∧
  (∀ a : ReadOrderArgs, a.inRange = true → ReadOrderArgs.parse a.bytes = some a) ∧
  (∀ a : SessionSetup, a.inRange = true → SessionSetup.parse a.bytes = some a) ∧
  (∀ a : RolloverArgs, RolloverArgs.parse a.bytes = some a) ∧
  (∀ n : Nat, n ≤ 100 → parseModeration (slotBytes n) = some n) ∧
  ∀ bs : List Byte,
    (parseNone bs = some () ↔ bs = []) ∧
    (∀ x, parseSource bs = some x ↔ SpellsSource bs x) ∧
    (∀ a, SetLoopArgs.parse bs = some a ↔ SpellsSetLoop bs a) ∧
    (∀ a, SetSectorArgs.parse bs = some a ↔ SpellsSetSector bs a) ∧
    (∀ a, PitSettings.parse bs = some a ↔ SpellsSetPit bs a) ∧
    (∀ l, parseLink bs = some l ↔ SpellsLink bs l) ∧
    (∀ a, ClearFlagsArgs.parse bs = some a ↔ SpellsClearFlags bs a) ∧
    (∀ a, EnrolArgs.parse bs = some a ↔ SpellsEnrol bs a) ∧
    (∀ a, AmendArgs.parse bs = some a ↔ SpellsAmend bs a) ∧
    (∀ n, (parseSlot bs = some n ↔ SpellsSlot bs n) ∧ (parseCapacity bs = some n ↔ SpellsSlot bs n)) ∧
    (∀ a, AdjustArgs.parse bs = some a ↔ SpellsAdjust bs a) ∧
    (∀ a, ReadRecordArgs.parse bs = some a ↔ SpellsReadRecord bs a) ∧
    (∀ a, DismissArgs.parse bs = some a ↔ SpellsDismiss bs a) ∧
    (∀ a, ReadOrderArgs.parse bs = some a ↔ SpellsReadOrder bs a) ∧
    (∀ a, SessionSetup.parse bs = some a ↔ SpellsSetup bs a) ∧
    (∀ a, RolloverArgs.parse bs = some a ↔ SpellsRollover bs a) ∧
    ∀ n, parseModeration bs = some n ↔ SpellsModeration bs n

/-! ## The time base -/

/-- Ticks (part of R1 and R3): with nothing due, a tick that is not corrective advances circuit time by 1; the tick that
brings the trim counter to P is corrective, advances it by 2 or by 0 with the sign of the trim, and returns the counter
to 0; the absence counter counts while the monitor is not ABSENT (R9); circuit time holds at 2^48 - 1; nothing else
moves. -/
def Obligations.Ticks : Prop :=
  ∀ s : State, s.quiet →
    (s.time.trim = 0 ∨ s.time.trimCount + 1 ≠ 1000000 / s.time.trim.natAbs →
      exec .rawTick s = .next { s with time := { s.time with
        now := min (s.time.now + 1) 281474976710655,
        trimCount := if s.time.trim = 0 then 0 else s.time.trimCount + 1,
        absence := if s.time.monitor = .absent then s.time.absence else s.time.absence + 1 } }) ∧
    (s.time.trim ≠ 0 ∧ s.time.trimCount + 1 = 1000000 / s.time.trim.natAbs →
      exec .correctiveTick s = .next { s with time := { s.time with
        now := min (s.time.now + if 0 < s.time.trim then 2 else 0) 281474976710655,
        trimCount := 0,
        absence := if s.time.monitor = .absent then s.time.absence else s.time.absence + 1 } })

/-- Circuit time never decreases but at a pin reset, moves only at a tick, and by at most 2 (part of R1 and R4). -/
def Obligations.TimeNeverFalls : Prop :=
  ∀ (c : Instr) (s t : State), s.time.now ≤ 281474976710655 → exec c s = .next t → c ≠ .pinReset →
    s.time.now ≤ t.time.now ∧ t.time.now ≤ s.time.now + 2 ∧
    (c ≠ .rawTick → c ≠ .correctiveTick → t.time.now = s.time.now)

/-- Every step keeps the time base legal: its ranges, the table of selection and mode, the trim counter below its
period, the marks behind the clock (the tables of 01). -/
def Obligations.TimeBaseKept : Prop :=
  ∀ s t : State, s.time.legal → step s = .next t → t.time.legal

/-- MARK_ISSUE (part of R4, R5 and R170): M moves on by one, the mark frame, a delimiter with its data characters, goes out
on every link whose role is not OFF, and the last mark sets the mark limit flag and raises TIME. -/
def Obligations.MarkIssue : Prop :=
  ∀ s : State, s.report.legal → s.time.markLimit = false → (s.time.mark + 1) * 10000 ≤ s.time.now →
    ∃ t, exec .markIssue s = .next t ∧
      t.time = { s.time with mark := s.time.mark + 1, markLimit := decide (s.time.mark + 1 = 4294967295) } ∧
      (∀ l, t.link l = if (s.link l).role = .off then s.link l else
        { s.link l with downstream := 0x17e#9 ::
          (withCheck [0x10#8, BitVec.ofNat 8 (s.time.mark + 1)]).map fun b => (0#1 ++ b : BitVec 9) }) ∧
      t.circuit = s.circuit ∧ KeepsRace s t ∧ KeepsQueue s t ∧ KeepsPort s t ∧
      Reports s t (if s.time.mark + 1 = 4294967295 then [.time] else [])

/-- REF_EDGE (R6, R7, R8, R10, R11 but for what resets do): in ABSENT it starts a qualification; a bad interval returns
to QUALIFYING, from LOCKED to HOLDOVER; a good one counts, qualifies at the fourth in a row, locks a part in HOLDOVER,
and renews the trim while LOCKED. TIME is raised once when the monitor state or the mode changes. -/
def Obligations.RefEdge : Prop :=
  ∀ s : State, s.report.legal → s.time.legal →
    ∃ t, exec .refEdge s = .next t ∧ t.links = s.links ∧ t.circuit = s.circuit ∧ KeepsRace s t ∧ KeepsQueue s t ∧
      KeepsPort s t ∧
      (s.time.monitor = .absent →
        t.time = { s.time with monitor := .qualifying, goodCount := 0, lastEdge := some s.time.now, absence := 0 } ∧
        Reports s t [.time]) ∧
      (s.time.monitor ≠ .absent → ¬(999900 ≤ s.time.absence ∧ s.time.absence ≤ 1000100) →
        t.time = { s.time with
          monitor := .qualifying, goodCount := 0,
          mode := if s.time.mode = .locked then .holdover else s.time.mode,
          lastInterval := some { ticks := s.time.absence, verdict := .bad },
          lastEdge := some s.time.now, absence := 0 } ∧
        Reports s t (if s.time.monitor = .qualified then [.time] else [])) ∧
      (999900 ≤ s.time.absence ∧ s.time.absence ≤ 1000100 →
        (s.time.monitor = .qualifying → s.time.goodCount < 3 →
          t.time = { s.time with
            goodCount := s.time.goodCount + 1,
            lastInterval := some { ticks := s.time.absence, verdict := .good },
            lastEdge := some s.time.now, absence := 0 } ∧
          Reports s t []) ∧
        (s.time.monitor = .qualifying → s.time.goodCount = 3 →
          t.time = { s.time with
            goodCount := 4, monitor := .qualified,
            mode := if s.time.source = .reference then .locked else s.time.mode,
            trim := if s.time.source = .reference then 1000000 - (s.time.absence : Int) else s.time.trim,
            trimCount := if s.time.source = .reference then 0 else s.time.trimCount,
            lastInterval := some { ticks := s.time.absence, verdict := .good },
            lastEdge := some s.time.now, absence := 0 } ∧
          Reports s t [.time]) ∧
        (s.time.monitor = .qualified →
          t.time = { s.time with
            trim := if s.time.mode = .locked then 1000000 - (s.time.absence : Int) else s.time.trim,
            trimCount := if s.time.mode = .locked then 0 else s.time.trimCount,
            lastInterval := some { ticks := s.time.absence, verdict := .good },
            lastEdge := some s.time.now, absence := 0 } ∧
          Reports s t []))

/-- ABSENCE_EXPIRY (part of R9 and R10): the monitor is ABSENT with a count of 0, a LOCKED part goes to HOLDOVER with its
trim and counter kept, TIME is raised, and the last interval and edge are kept. That the stopped counter keeps its value
is the model's (log 25). -/
def Obligations.AbsenceExpiry : Prop :=
  ∀ s : State, s.report.legal → s.time.legal → s.time.monitor ≠ .absent → s.time.absence = 1500000 →
    ∃ t, exec .absenceExpiry s = .next t ∧
      t.time = { s.time with
        monitor := .absent, goodCount := 0,
        mode := if s.time.mode = .locked then .holdover else s.time.mode } ∧
      t.links = s.links ∧ t.circuit = s.circuit ∧ KeepsRace s t ∧ KeepsQueue s t ∧ KeepsPort s t ∧
      Reports s t [.time]

/-- SELECT SOURCE (R12): the table of its outcomes, in every session state and under the lock alike. -/
def Obligations.SelectSource : Prop :=
  ∀ (s : State) (b : Byte), s.ready → s.time.legal →
    ∃ t, exec (.selectSource [b]) s = .next t ∧ t.links = s.links ∧ t.circuit = s.circuit ∧ KeepsRace s t ∧
      KeepsQueue s t ∧
      (b = 0x00#8 →
        Answers s t .selectSource [b] .ok [] ∧
        (s.time.mode = .free → OnlyReply s t) ∧
        (s.time.mode ≠ .free →
          t.time = { s.time with source := .internal, mode := .free, trim := 0, trimCount := 0 } ∧
          Reports s t [.time])) ∧
      (b = 0x01#8 → s.time.monitor = .qualified →
        Answers s t .selectSource [b] .ok [] ∧
        (s.time.mode = .locked → OnlyReply s t) ∧
        (s.time.mode = .free → ∀ i, s.time.lastInterval = some i →
          t.time = { s.time with
            source := .reference, mode := .locked, trim := 1000000 - (i.ticks : Int), trimCount := 0 } ∧
          Reports s t [.time])) ∧
      (b = 0x01#8 → s.time.monitor ≠ .qualified →
        Refuses s t .selectSource [b] .notQualified) ∧
      (b ≠ 0x00#8 → b ≠ 0x01#8 → Refuses s t .selectSource [b] .badArgument)

/-! ## Loop links -/

/-- FRAMING_GAINED, FRAMING_LOST and SILENCE_EXPIRY (R24 and R26 but for the reports, part of R23 and R25): the table of
link states, with the outage that opens on leaving LIVE and LINK_STATE on every change of state. Framing is lost only when
1,000 microseconds have passed since the last delimiter. That the line's delimiters come as FRAMING_GAINED, which moves
the expiry on while framing is present, is the model's (log 12), and so is an expiry that is not due doing nothing
(log 2). -/
def Obligations.Framing : Prop :=
  ∀ (s : State) (l : LinkNo), s.report.legal → (s.link l).legal →
    let k := s.link l
    (k.framing = none → ∃ t, exec (.framingGained l) s = .next t ∧ KeepsPort s t ∧
      (k.state = .down →
        LinkEvent s t l { k with framing := some (s.now + 1000), state := .silent } [.linkState]) ∧
      (k.state = .off → LinkEvent s t l { k with framing := some (s.now + 1000) } [])) ∧
    (k.framing ≠ none → ∃ t, exec (.framingGained l) s = .next t ∧ KeepsPort s t ∧
      LinkEvent s t l { k with framing := some (s.now + 1000) } []) ∧
    (∀ e, k.framing = some e → e ≤ s.now →
      ∃ t, exec (.framingLost l) s = .next t ∧ KeepsPort s t ∧
      (k.state = .live → LinkEvent s t l ({ k with framing := none }.afterLive .down s.now) [.linkState]) ∧
      (k.state = .silent → LinkEvent s t l { k with framing := none, state := .down } [.linkState]) ∧
      (k.state = .off → LinkEvent s t l { k with framing := none } [])) ∧
    (∀ e, k.framing = some e → s.now < e → exec (.framingLost l) s = .next s) ∧
    (k.state = .live → ∀ e, k.silenceExpiry = some e → e ≤ s.now →
      ∃ t, exec (.silenceExpiry l) s = .next t ∧ KeepsPort s t ∧
        LinkEvent s t l (k.afterLive .silent s.now) [.linkState])

/-- ECHO (R28, with its part of R25 and R26): its age is taken modulo 256 against M; beyond the maximum hit age or beyond
M it is stale and sets STALE; it restarts the silence timer in MARK mode unless stale, and in TRAFFIC mode always. The
delimiter that ends it moves the framing expiry on (R23). -/
def Obligations.Echo : Prop :=
  ∀ (s : State) (l : LinkNo) (m : BitVec 8), s.report.legal → (s.link l).legal → (s.link l).hears →
    let k := (s.link l).heard s.now
    let stale := tooOld k s.time.mark m.toNat
    let restarts := decide (k.settings.liveness = .traffic) || !stale
    ∃ t, exec (.echo l m) s = .next t ∧ KeepsPort s t ∧
      LinkEvent s t l (if restarts then k.afterRestart s.now else k)
        ((if restarts && decide (k.state = .silent) then [.linkState] else []) ++ (if stale then [.stale] else []))

/-- NOISE (R29, with its part of R25): the level is stored; NOISY at or above the threshold; NOISE_CHANGE when it crosses
the threshold or is the first stored. The delimiter that ends it moves the framing expiry on (R23). -/
def Obligations.Noise : Prop :=
  ∀ (s : State) (l : LinkNo) (v : BitVec 8), s.report.legal → (s.link l).legal → (s.link l).hears →
    let k := (s.link l).heard s.now
    let high := decide (k.settings.threshold ≤ v.toNat)
    let crosses := k.noise.all fun n => decide (k.settings.threshold ≤ n) != high
    ∃ t, exec (.noise l v) s = .next t ∧ KeepsPort s t ∧
      LinkEvent s t l { k.afterValid s.now with noise := some v.toNat }
        (k.validFlags ++ (if high then [.noisy] else []) ++ (if crosses then [.noiseChange] else []))

/-- Reports that reach no one (part of R23, R27, R30 and R31): on a link without framing a report has no effect, and on one
that is OFF its closing delimiter moves the framing expiry and nothing else; one that is not valid sets CORRUPT and restarts
nothing, a HIT whose code or offset is out of range with it; a valid HIT that is too old sets STALE, one timed after circuit
time sets CORRUPT, one timed before the latest accepted hit sets OUT_OF_ORDER, each after the restart a valid report gives
in TRAFFIC mode. -/
def Obligations.ReportsDiscarded : Prop :=
  ∀ (s : State) (l : LinkNo) (c : BitVec 24) (m : BitVec 8) (o : BitVec 16) (x : BitVec 8), s.settled →
    (s.link l).legal →
    let k := (s.link l).heard s.now
    let v := k.afterValid s.now
    let valid := 1 ≤ c.toNat ∧ c.toNat ≤ 16777214 ∧ o.toNat ≤ 9999
    let at' := hitInstant k s.time.mark m.toNat o.toNat
    let deaf := fun (t : State) => exec (.hit l c m o x) s = .next t ∧ exec (.echo l m) s = .next t ∧
      exec (.noise l x) s = .next t ∧ exec (.invalidReport l) s = .next t
    ((s.link l).framing = none → deaf s) ∧
    ((s.link l).framing ≠ none → k.role = .off → deaf { s with links := s.links.set l k }) ∧
    ((s.link l).hears →
      (∃ t, exec (.invalidReport l) s = .next t ∧ KeepsPort s t ∧ LinkEvent s t l k [.corrupt]) ∧
      ∃ t, exec (.hit l c m o x) s = .next t ∧ KeepsPort s t ∧
        (¬ valid → LinkEvent s t l k [.corrupt]) ∧
        (valid → tooOld k s.time.mark m.toNat = true → LinkEvent s t l v (k.validFlags ++ [.stale])) ∧
        (valid → tooOld k s.time.mark m.toNat = false →
          (s.now < at' → LinkEvent s t l v (k.validFlags ++ [.corrupt])) ∧
          (at' ≤ s.now → (∃ u ∈ k.latestHit, at' < u) → LinkEvent s t l v (k.validFlags ++ [.outOfOrder]))))

/-- A HIT that is accepted (R31 but for what it discards; R37, R38, R39, R41, and R40 where the stalled passing has too
few hits): it becomes the link's latest accepted hit, is weighted, and opens, joins or stalls the passing of its code, or
is absorbed by a GUARD entry, with the expiries a close gap after it. An expiry already reached when it is set happens at
once (R2): a GUARD entry is removed; an OPEN entry closes, which HitsThatClose states. -/
def Obligations.HitTaken : Prop :=
  ∀ (s : State) (l : LinkNo) (c : BitVec 24) (m : BitVec 8) (o : BitVec 16) (x : BitVec 8), s.settled →
    (s.link l).legal → (s.link l).hears → 1 ≤ c.toNat → c.toNat ≤ 16777214 → o.toNat ≤ 9999 →
    tooOld (s.link l) s.time.mark m.toNat = false →
    let k := (s.link l).heard s.now
    let at' := hitInstant k s.time.mark m.toNat o.toNat
    let v := { k.afterValid s.now with latestHit := some at' }
    let expiry := at' + k.settings.closeGap * 1000
    let strong := decide (k.settings.saturation ≤ x.toNat)
    let fs := k.validFlags ++ if strong then [.strong] else []
    let weight := min x.toNat k.settings.saturation - k.settings.threshold + 1
    let absorbed : KeyMap Entry :=
      if expiry ≤ s.now then k.passings.remove c.toNat
      else k.passings.put c.toNat (.guard { lastAbsorbed := at', expiry := expiry })
    at' ≤ s.now → (∀ u ∈ k.latestHit, u ≤ at') →
    ∃ t, exec (.hit l c m o x) s = .next t ∧ KeepsPort s t ∧
      (x.toNat < k.settings.threshold → LinkEvent s t l v (k.validFlags ++ [.weak])) ∧
      (k.settings.threshold ≤ x.toNat →
        (k.passings.find c.toNat = none → k.passings.length = 16 → LinkEvent s t l v (fs ++ [.crowded])) ∧
        (k.passings.find c.toNat = none → k.passings.length < 16 → s.now < expiry →
          LinkEvent s t l { v with passings := k.passings.put c.toNat (.passing
            { first := at', last := at', count := 1, weight := weight, moment := 0, saturated := strong,
              expiry := expiry }) } fs) ∧
        (∀ p, k.passings.find c.toNat = some (.passing p) →
          (at' ≤ p.first + k.settings.maxDwell * 1000 → s.now < expiry →
            LinkEvent s t l { v with passings := k.passings.put c.toNat (.passing
              { first := p.first, last := at', count := min (p.count + 1) 255, weight := p.weight + weight,
                moment := p.moment + weight * (at' - p.first), saturated := p.saturated || strong,
                expiry := expiry }) } fs) ∧
          (p.first + k.settings.maxDwell * 1000 < at' → p.count < k.settings.minHits →
            LinkEvent s t l { v with passings := absorbed } (fs ++ [.sparse]))) ∧
        (∀ g, k.passings.find c.toNat = some (.guard g) → LinkEvent s t l { v with passings := absorbed } fs))

/-- SET LOOP on a link that keeps its place (R16 as it bears on SET LOOP, and R18): every setting is stored; a new
silence timeout moves the silence expiry of a LIVE link to the last restart plus the new timeout, and one already reached
happens at once; under the lock the latency must be the one held. -/
def Obligations.SetLoopSettings : Prop :=
  ∀ (s : State) (a : SetLoopArgs), s.ready → (s.link a.link).legal → a.inRange = true → a.linePos ≤ 255 →
    let k := s.link a.link
    let old := k.settings.silence * 1000
    let new := a.settings.silence * 1000
    let moved := k.silenceExpiry.map fun e => if k.settings.silence = a.settings.silence then e else e - old + new
    let due := decide (k.settings.silence ≠ a.settings.silence) && moved.any fun e => decide (e ≤ s.now)
    k.role = a.role → k.linePos = (if a.role = .line then some a.linePos else none) →
    ∃ t, exec (.setLoop a.bytes) s = .next t ∧
      (s.session.locked = true → a.settings.latency ≠ k.settings.latency →
        Refuses s t .setLoop a.bytes .locked) ∧
      (s.session.locked = false ∨ a.settings.latency = k.settings.latency →
        Answers s t .setLoop a.bytes .ok [] ∧
        (due = false → LinkEvent s t a.link { k with settings := a.settings, silenceExpiry := moved } []) ∧
        (due = true →
          LinkEvent s t a.link ({ k with settings := a.settings }.afterLive .silent s.now) [.linkState]))

/-- SET LOOP that gives a link another role or line position (R19, R20, and R16 as it bears on it): under the lock it is
refused; otherwise the passings, the latest hit, the outage, the noise level and the silence expiry are dropped, the
link state is derived from role and framing, and every record's sector lists are rebuilt for the new L. That a record whose
lists are rebuilt to what they already hold does not join the changed-slot set is R74's, which the model follows against R20
(log 31). -/
def Obligations.SetLoopMoves : Prop :=
  ∀ (s : State) (a : SetLoopArgs), s.ready → s.session.legal → s.table.legal → (s.link a.link).legal → a.inRange = true →
    a.linePos ≤ 255 →
    let k := s.link a.link
    let pos := if a.role = .line then some a.linePos else none
    let next : LinkState := if a.role = .off then .off else if k.framing = none then .down else .silent
    ¬(k.role = a.role ∧ k.linePos = pos) →
    ∃ t, exec (.setLoop a.bytes) s = .next t ∧
      (s.session.locked = true → Refuses s t .setLoop a.bytes .locked) ∧
      (s.session.locked = false →
        Answers s t .setLoop a.bytes .ok [] ∧
        t.link a.link =
          { role := a.role, linePos := pos, settings := a.settings, framing := k.framing, state := next,
            silenceExpiry := none, outage := none, latestHit := none, noise := none,
            flags := if next = k.state then k.flags else addFlag k.flags .linkState, passings := [],
            downstream := k.downstream } ∧
        OtherLinks s t a.link ∧ t.time = s.time ∧ t.circuit = s.circuit ∧ t.session = s.session ∧ KeepsIndex s t ∧
        KeepsLead s t ∧ KeepsQueue s t ∧ t.orderAgrees ∧
        Follows s t (if next = k.state then [] else loopsRaised k [.linkState]) ∧
        ∀ n, t.record? n = none ∧ s.record? n = none ∨
          ∃ r r', s.record? n = some r ∧ t.record? n = some r' ∧
            OnlyPlaced
              { r with
                bestSectors := List.replicate t.lineCount none,
                bestLap := r.bestLap.map fun b => { b with sectors := List.replicate t.lineCount none },
                sectors := List.replicate t.lineCount .pending,
                lastLap := r.lastLap.map fun x => { x with sectors := List.replicate t.lineCount .pending },
                lastPos := if r.lastPos.any (fun p => decide (t.lineCount ≤ p)) then none else r.lastPos } r')

/-- SET SECTOR and SET PIT (part of R21, R22 and R16): the settings are stored, refused under the lock. CLEAR LOOP FLAGS
(R33 but for its refusals, which Refused states): the flags named leave the flag sets of the links selected, whatever
the lock, and the LOOPS cause stays. -/
def Obligations.CircuitSettings : Prop :=
  ∀ s : State, s.ready →
    (∀ a : SetSectorArgs, a.inRange = true → ∃ t, exec (.setSector a.bytes) s = .next t ∧
      (s.session.locked = true → Refuses s t .setSector a.bytes .locked) ∧
      (s.session.locked = false → Answers s t .setSector a.bytes .ok [] ∧
        t.circuit.sectorMin = s.circuit.sectorMin.set a.sector a.minimum ∧ t.circuit.pit = s.circuit.pit ∧
        t.time = s.time ∧ t.links = s.links ∧ KeepsRace s t ∧ KeepsQueue s t ∧ KeepsTimer s t ∧ KeepsNews s t)) ∧
    (∀ a : PitSettings, a.inRange = true → ∃ t, exec (.setPit a.bytes) s = .next t ∧
      (s.session.locked = true → Refuses s t .setPit a.bytes .locked) ∧
      (s.session.locked = false → Answers s t .setPit a.bytes .ok [] ∧
        t.circuit = { s.circuit with pit := some a } ∧
        t.time = s.time ∧ t.links = s.links ∧ KeepsRace s t ∧ KeepsQueue s t ∧ KeepsTimer s t ∧ KeepsNews s t)) ∧
    (∀ a : ClearFlagsArgs, ∃ t, exec (.clearLoopFlags a.bytes) s = .next t ∧
      Answers s t .clearLoopFlags a.bytes .ok [] ∧
      (∀ l, t.link l = if a.link = none ∨ a.link = some l then
          { s.link l with flags := (s.link l).flags &&& ~~~a.mask } else s.link l) ∧
      t.time = s.time ∧ t.circuit = s.circuit ∧ KeepsRace s t ∧ KeepsQueue s t ∧ KeepsTimer s t ∧ KeepsNews s t)

/-- Every step keeps every link legal: a line position exactly while LINE, its settings in range, the link state the one
of role and framing, a silence expiry exactly while LIVE, at most 16 passings with their hits in time order (the tables
and prose of 02 and 03). -/
def Obligations.LinksKept : Prop :=
  ∀ s t : State, (∀ l, (s.link l).legal) → step s = .next t → ∀ l, (t.link l).legal

/-- The configuration lock (part of R16 and R144): while it is held, no command but a pin reset changes a link's role,
line position or latency, the sector minimum times or the pit settings. -/
def Obligations.LockHolds : Prop :=
  ∀ (c : Instr) (s t : State), s.session.locked = true → exec c s = .next t → c ≠ .pinReset →
    t.circuit = s.circuit ∧ ∀ l, (t.link l).role = (s.link l).role ∧ (t.link l).linePos = (s.link l).linePos ∧
      (t.link l).settings.latency = (s.link l).settings.latency

/-- A flag of any link that goes from clear to set leaves LOOPS pending (part of R32): no step sets one silently. -/
def Obligations.LoopsCause : Prop :=
  ∀ (s t : State) (l : LinkNo) (f : LoopFlag), step s = .next t →
    hasFlag (s.link l).flags f = false → hasFlag (t.link l).flags f = true →
    hasCause t.report.causes .loops = true

/-! ## Passings -/

/-- A HIT that closes a passing: one that lies more than the maximum dwell after the first hit closes it as STALLED and
leaves a GUARD entry (R40); one whose close expiry is already reached when it is set closes the passing it has just
opened or joined (R2, with R38, R39, R42 and R44). A passing with too few hits is SPARSE; the others are handed on, with
the centroid of R43 for their time. -/
def Obligations.HitsThatClose : Prop :=
  ∀ (s : State) (l : LinkNo) (c : BitVec 24) (m : BitVec 8) (o : BitVec 16) (x : BitVec 8), s.settled →
    (s.link l).legal → (s.link l).hears → 1 ≤ c.toNat → c.toNat ≤ 16777214 → o.toNat ≤ 9999 →
    tooOld (s.link l) s.time.mark m.toNat = false → (s.link l).settings.threshold ≤ x.toNat →
    let k := (s.link l).heard s.now
    let at' := hitInstant k s.time.mark m.toNat o.toNat
    let v := { k.afterValid s.now with latestHit := some at' }
    let expiry := at' + k.settings.closeGap * 1000
    let strong := decide (k.settings.saturation ≤ x.toNat)
    let fs := k.validFlags ++ if strong then [.strong] else []
    let weight := min x.toNat k.settings.saturation - k.settings.threshold + 1
    let gone := { v with passings := k.passings.remove c.toNat }
    let absorbed : KeyMap Entry :=
      if expiry ≤ s.now then k.passings.remove c.toNat
      else k.passings.put c.toNat (.guard { lastAbsorbed := at', expiry := expiry })
    at' ≤ s.now → (∀ u ∈ k.latestHit, u ≤ at') →
    (k.passings.find c.toNat = none → k.passings.length < 16 → expiry ≤ s.now →
      (1 < k.settings.minHits → ∃ t, exec (.hit l c m o x) s = .next t ∧ LinkEvent s t l v (fs ++ [.sparse])) ∧
      (k.settings.minHits ≤ 1 →
        exec (.hit l c m o x) s = .next (closeEvent s ((s.withLink l v fs).handOn l c.toNat at'
          (if strong then .saturated else .good))))) ∧
    (∀ p, k.passings.find c.toNat = some (.passing p) →
      let joined : OpenPassing :=
        { first := p.first, last := at', count := min (p.count + 1) 255, weight := p.weight + weight,
          moment := p.moment + weight * (at' - p.first), saturated := p.saturated || strong, expiry := expiry }
      (p.first + k.settings.maxDwell * 1000 < at' → k.settings.minHits ≤ p.count →
        exec (.hit l c m o x) s = .next (closeEvent s
          ((s.withLink l { v with passings := absorbed } fs).handOn l c.toNat p.time .stalled))) ∧
      (at' ≤ p.first + k.settings.maxDwell * 1000 → expiry ≤ s.now →
        (joined.count < k.settings.minHits → ∃ t, exec (.hit l c m o x) s = .next t ∧
          LinkEvent s t l gone (fs ++ [.sparse])) ∧
        (k.settings.minHits ≤ joined.count →
          exec (.hit l c m o x) s = .next (closeEvent s ((s.withLink l gone fs).handOn l c.toNat joined.time
            (if joined.saturated then .saturated else .good))))))

/-- CLOSE_EXPIRY and GUARD_REMOVAL (R42, R43 and R47, part of R44, R45 and R68): the entry leaves its table; a passing
with fewer hits than the minimum sets SPARSE; while ROLLING one with enough is discarded; otherwise it is handed on with
its centroid, rounded to the nearest microsecond with halves up, which lies between its first and last hits. -/
def Obligations.PassingCloses : Prop :=
  (∀ (s : State) (l : LinkNo) (code : Nat), s.settled →
    let k := s.link l
    let gone := { k with passings := k.passings.remove code }
    (∀ p, k.passings.find code = some (.passing p) → p.expiry ≤ s.now →
      ∃ t, exec (.closeExpiry l code) s = .next t ∧ KeepsPort s t ∧
        (p.count < k.settings.minHits → LinkEvent s t l gone [.sparse]) ∧
        (k.settings.minHits ≤ p.count → s.session.phase = .rolling → LinkEvent s t l gone []) ∧
        (k.settings.minHits ≤ p.count →
          t = closeEvent s ((s.withLink l gone []).handOn l code p.time
            (if p.saturated then .saturated else .good)))) ∧
    (∀ g, k.passings.find code = some (.guard g) → g.expiry ≤ s.now →
      ∃ t, exec (.guardRemoval l code) s = .next t ∧ KeepsPort s t ∧ LinkEvent s t l gone [])) ∧
  ∀ (p : OpenPassing) (latest : Option Nat), p.legal latest →
    p.first ≤ p.time ∧ p.time ≤ p.last ∧
    2 * p.weight * (p.time - p.first) ≤ 2 * p.moment + p.weight ∧
    2 * p.moment + p.weight < 2 * p.weight * (p.time - p.first + 1)

/-- A passing that resolves to no record (R75 but for how entries leave): its code's entry counts it and keeps the first
and last times seen; a new code is inserted in the order of first-seen times and raises UNKNOWN; with 16 entries
UNKNOWN_FULL is set instead, which raises UNKNOWN when it was clear. No record changes. -/
def Obligations.UnknownSeen : Prop :=
  ∀ (s : State) (l : LinkNo) (code : Nat) (p : OpenPassing), s.settled → s.table.unknownLegal →
    PassingDue s l code p → s.session.phase ≠ .rolling → s.table.index.find code = none →
    ∃ t, exec (.closeExpiry l code) s = .next t ∧ PassingGone s t l code ∧ t.table.records = s.table.records ∧
      t.order = s.order ∧ t.session = s.session ∧
      (∀ x, x.code ≠ code → (x ∈ t.table.unknown ↔ x ∈ s.table.unknown)) ∧
      t.table.unknown.Pairwise (fun a b => a.first < b.first ∨ a.first = b.first ∧ a.code < b.code) ∧
      (∀ e ∈ s.table.unknown, e.code = code →
        { code := code, first := min e.first p.time, last := max e.last p.time,
          link := if e.last ≤ p.time then l else e.link, sightings := min (e.sightings + 1) 255 } ∈ t.table.unknown ∧
        t.table.unknown.length = s.table.unknown.length ∧ t.table.unknownFull = s.table.unknownFull ∧
        Reports s t []) ∧
      ((∀ e ∈ s.table.unknown, e.code ≠ code) → s.table.unknown.length < 16 →
        { code := code, first := p.time, last := p.time, link := l, sightings := 1 } ∈ t.table.unknown ∧
        t.table.unknown.length = s.table.unknown.length + 1 ∧ t.table.unknownFull = s.table.unknownFull ∧
        Reports s t [.unknown]) ∧
      ((∀ e ∈ s.table.unknown, e.code ≠ code) → s.table.unknown.length = 16 →
        t.table.unknown = s.table.unknown ∧ t.table.unknownFull = true ∧
        Reports s t (if s.table.unknownFull then [] else [.unknown]))

/-- A resolved passing that goes to no one (R69, and R70 as far as it names no block): it updates the last sighting,
unless it lies before the time held, and changes nothing else. -/
def Obligations.SightingOnly : Prop :=
  ∀ (s : State) (l : LinkNo) (code slot : Nat) (p : OpenPassing) (r : Record), s.settled → s.table.legal →
    PassingDue s l code p → s.session.phase ≠ .rolling → s.table.index.find code = some slot → s.record? slot = some r →
    (s.session.phase ≠ .green ∧ s.session.phase ≠ .caution ∧ s.session.phase ≠ .chequered ∨
      r.state = .finished ∨ r.state = .retired ∨ r.state = .excluded) →
    ∃ t, exec (.closeExpiry l code) s = .next t ∧ PassingGone s t l code ∧ KeepsIndex s t ∧ t.order = s.order ∧
      t.session = s.session ∧ Follows s t [] ∧ (∀ n, n ≠ slot → t.record? n = s.record? n) ∧
      t.record? slot = some (r.seen l p)

/-! ## Competitors -/

/-- ENROL (R61 with R54 and R56, part of R53, R58 and R75): the lowest free slot within the limit takes a new record,
ENROLLED, with the current session number; the code joins the index and leaves the unknown list; the reply gives the
slot. A code or car number in use, and a full table, are refused in that order. -/
def Obligations.Enrol : Prop :=
  ∀ (s : State) (a : EnrolArgs), s.ready → s.table.legal → a.inRange = true → s.session.phase ≠ .rolling →
    let codeHeld := ∃ n r, s.record? n = some r ∧ r.code = a.code
    let carHeld := ∃ n r, s.record? n = some r ∧ r.car = a.car
    ∃ t, exec (.enrol a.bytes) s = .next t ∧
      (codeHeld → Refuses s t .enrol a.bytes .codeInUse) ∧
      (¬ codeHeld → carHeld → Refuses s t .enrol a.bytes .numberInUse) ∧
      (¬ codeHeld → ¬ carHeld → (∀ n, 1 ≤ n → n ≤ s.table.slotLimit → s.record? n ≠ none) →
        Refuses s t .enrol a.bytes .tableFull) ∧
      (¬ codeHeld → ¬ carHeld → ∀ slot, 1 ≤ slot → slot ≤ s.table.slotLimit → s.record? slot = none →
        (∀ n, 1 ≤ n → n < slot → s.record? n ≠ none) →
        Takes s t .enrol a.bytes [BitVec.ofNat 8 slot] ∧ t.order = s.order ∧ t.session = s.session ∧
        (∀ n, n ≠ slot → t.record? n = s.record? n) ∧
        t.record? slot = some
          { code := a.code, car := a.car, cls := a.cls, grid := a.grid, session := s.session.number,
            state := .enrolled, retiredFrom := none, laps := 0, started := false, lapStart := none, lastPos := none,
            lastTime := none, latest := none, lapFlags := 0, sectors := List.replicate s.lineCount .pending,
            lastLap := none, delta := none, gap := none, position := none, elapsed := none, finish := none,
            penalty := 0, netAdjust := 0, pitStops := 0, pit := none, sighting := none, rejection := none,
            notices := 0, bestLap := none, bestSectors := List.replicate s.lineCount none } ∧
        t.table.index.find a.code = some slot ∧ (∀ c, c ≠ a.code → t.table.index.find c = s.table.index.find c) ∧
        t.table.unknown = s.table.unknown.filter (fun e => e.code ≠ a.code) ∧
        t.table.unknownFull = s.table.unknownFull ∧ t.table.slotLimit = s.table.slotLimit)

/-- AMEND (R62, part of R53 and R58): what is carried is stored and nothing else of the record changes; a changed code
moves the record's pair in the index and leaves the unknown list; a code or car number another record holds is refused,
a FREE slot answered NO_SUCH_RECORD. That the code is compared before the car number is the model's (log 22). -/
def Obligations.Amend : Prop :=
  ∀ (s : State) (a : AmendArgs), s.ready → s.table.legal → s.table.unknownLegal → a.inRange = true →
    s.session.phase ≠ .rolling →
    let codeTaken := ∃ c ∈ a.code, ∃ n r, n ≠ a.slot ∧ s.record? n = some r ∧ r.code = c
    let carTaken := ∃ c ∈ a.car, ∃ n r, n ≠ a.slot ∧ s.record? n = some r ∧ r.car = c
    ∃ t, exec (.amend a.bytes) s = .next t ∧
      (s.record? a.slot = none → Refuses s t .amend a.bytes .noSuchRecord) ∧
      (∀ r, s.record? a.slot = some r →
        (codeTaken → Refuses s t .amend a.bytes .codeInUse) ∧
        (¬ codeTaken → carTaken → Refuses s t .amend a.bytes .numberInUse) ∧
        (¬ codeTaken → ¬ carTaken →
          Takes s t .amend a.bytes [] ∧ t.order = s.order ∧ t.session = s.session ∧
          (∀ n, n ≠ a.slot → t.record? n = s.record? n) ∧
          t.record? a.slot = some { r with
            code := a.code.getD r.code, car := a.car.getD r.car, cls := a.cls.getD r.cls,
            grid := match a.grid with | .keep => r.grid | .give g => some g | .remove => none } ∧
          (∀ c, t.table.index.find c =
            if c = a.code.getD r.code then some a.slot else if c = r.code then none else s.table.index.find c) ∧
          t.table.unknown = s.table.unknown.filter (fun e => e.code ≠ a.code.getD r.code) ∧
          t.table.unknownFull = s.table.unknownFull ∧ t.table.slotLimit = s.table.slotLimit))

/-- RETIRE, REINSTATE, EXCLUDE and RELEASE (R63, R64, R65 and R66, with part of R57 and R142): each is taken for the
states its rule names and refused with WRONG_STATE for the others; the record keeps every field but those named, joins
or leaves the order, and an open pit record is closed or opened with the state; while CHEQUERED the session closes when
no record is left in RUNNING or PIT. EXCLUDE of an EXCLUDED record changes nothing. -/
def Obligations.RecordStates : Prop :=
  ∀ (s : State) (slot : Nat) (r : Record), s.ready → s.table.legal → r.legal → 1 ≤ slot → slot ≤ 128 →
    s.session.phase ≠ .rolling → s.record? slot = some r →
    let args := [BitVec.ofNat 8 slot]
    let shut := if r.state = .pit then r.pit.map fun p =>
      { p with exit := none, transit := none, speed := none, speeding := false, isOpen := false } else r.pit
    let becomes := fun (t : State) (kind : RequestKind) (r' : Record) =>
      Takes s t kind args [] ∧ KeepsLead s t ∧ KeepsIndex s t ∧ t.orderAgrees ∧ OthersOnlyPlaced s t slot ∧
      ∃ x, t.record? slot = some x ∧ OnlyPlaced r' x
    let fieldIn := fun (t : State) =>
      if s.session.phase = .chequered ∧ (r.state = .running ∨ r.state = .pit) then EndsAs t s.session
      else t.session = s.session
    (∃ t, exec (.retire args) s = .next t ∧
      (r.state = .retired ∨ r.state = .excluded → Refuses s t .retire args .wrongState) ∧
      (r.state ≠ .retired → r.state ≠ .excluded →
        becomes t .retire { r with state := .retired, retiredFrom := some r.state, pit := shut } ∧ fieldIn t)) ∧
    (∃ t, exec (.exclude args) s = .next t ∧
      (r.state = .excluded → Answers s t .exclude args .ok [] ∧ OnlyReply s t) ∧
      (r.state ≠ .excluded →
        becomes t .exclude { r with state := .excluded, retiredFrom := none, pit := shut } ∧ fieldIn t)) ∧
    (∃ t, exec (.reinstate args) s = .next t ∧
      (r.state ≠ .retired → Refuses s t .reinstate args .wrongState) ∧
      (∀ st, r.state = .retired → r.retiredFrom = some st → t.session = s.session ∧
        becomes t .reinstate { r with
          state := st, retiredFrom := none,
          pit := if st = .pit then r.pit.map fun p => { p with isOpen := true } else r.pit })) ∧
    ∃ t, exec (.release args) s = .next t ∧
      let free := (s.session.phase = .idle ∨ s.session.phase = .closed) ∧ r.state ≠ .running ∧ r.state ≠ .pit ∨
        r.state = .enrolled ∧ r.started = false
      (¬ free → Refuses s t .release args .wrongState) ∧
      (free →
        Takes s t .release args [] ∧ KeepsLead s t ∧ t.session = s.session ∧ t.orderAgrees ∧
        OthersOnlyPlaced s t slot ∧ t.record? slot = none ∧
        (∀ c, t.table.index.find c = if c = r.code then none else s.table.index.find c) ∧
        t.table.unknown = s.table.unknown ∧ t.table.unknownFull = s.table.unknownFull ∧
        t.table.slotLimit = s.table.slotLimit)

/-- ADJUST (R127 but for its example): laps clamped to 0 and 65,535, the net adjustment to its range, the penalty held at
its top; the reply gives the three, and the record is placed anew. READ RECORD (R67, part of R169 and R171): the whole
record by slot, by code or by car number, field by field, in 125 + 20 x L bytes, its notices emptied where that is chosen.
What stands in the bytes of an absent field is the model's: zero bytes (log 11). -/
def Obligations.AdjustAndRead : Prop :=
  ∀ s : State, s.ready → s.table.legal → s.session.phase ≠ .rolling →
    (∀ (a : AdjustArgs) (r : Record), a.inRange = true → s.record? a.slot = some r →
      let laps := min ((r.laps : Int) + a.laps).toNat 65535
      let net := max (-255) (min (r.netAdjust + a.laps) 255)
      let penalty := min (r.penalty + a.penalty) 4294967295
      ∃ t, exec (.adjust a.bytes) s = .next t ∧
        Takes s t .adjust a.bytes (beBytes 2 laps ++ beBytes 2 (net % 65536).toNat ++ beBytes 4 penalty) ∧
        KeepsLead s t ∧ KeepsIndex s t ∧ t.session = s.session ∧ t.orderAgrees ∧ OthersOnlyPlaced s t a.slot ∧
        ∃ x, t.record? a.slot = some x ∧ OnlyPlaced { r with laps := laps, netAdjust := net, penalty := penalty } x) ∧
    (∀ (a : ReadRecordArgs) (slot : Nat) (r : Record), a.who.inRange = true → s.record? slot = some r →
      (a.who = .slot slot ∨ a.who = .code r.code ∨ a.who = .car r.car) →
      let time := fun (o : Option Nat) => beBytes 6 (o.getD 0)
      let shown := maskOf
        [r.grid.isSome, r.retiredFrom.isSome, r.lapStart.isSome, r.lastPos.isSome, r.lastTime.isSome, r.latest.isSome,
         r.delta.isSome, r.gap.isSome, r.position.isSome, r.elapsed.isSome, r.finish.isSome, r.pit.isSome,
         r.pit.any (·.entry.isSome), r.pit.any (·.exit.isSome), r.pit.any (·.transit.isSome),
         r.pit.any (·.speed.isSome), r.sighting.isSome, r.rejection.isSome, r.lastLap.isSome, r.bestLap.isSome]
      let head := [BitVec.ofNat 8 slot, recStateByte r.state] ++ beBytes 4 shown ++ beBytes 3 r.code ++ beBytes 2 r.car ++
        [BitVec.ofNat 8 r.cls, BitVec.ofNat 8 (r.grid.getD 0), BitVec.ofNat 8 r.session, BitVec.ofNat 8 s.lineCount,
         match r.retiredFrom with | some st => recStateByte st | none => 0x00#8] ++
        beBytes 2 r.laps ++ [0#3 ++ r.lapFlags ++ BitVec.ofBool r.started, 0#1 ++ r.notices] ++
        time r.lapStart ++ [BitVec.ofNat 8 (r.lastPos.getD 0)] ++ time r.lastTime ++ time r.latest ++
        beBytes 4 ((r.delta.getD 0) % 4294967296).toNat ++ [BitVec.ofNat 8 (gapEntry r.gap).1] ++
        beBytes 6 (gapEntry r.gap).2 ++ [BitVec.ofNat 8 (r.position.getD 0)] ++ time r.elapsed ++ time r.finish ++
        beBytes 4 r.penalty ++ beBytes 2 (r.netAdjust % 65536).toNat ++ [BitVec.ofNat 8 r.pitStops]
      let pit := match r.pit with
        | some y => [BitVec.ofNat 8 (maskOf [y.speeding, y.isOpen, decide (y.transit = some 4294967295)])] ++
            time y.entry ++ time y.exit ++ beBytes 4 (y.transit.getD 0) ++ beBytes 2 (y.speed.getD 0)
        | none => List.replicate 19 0x00#8
      let seen := match r.sighting with
        | some y => [BitVec.ofNat 8 y.link.val,
            match y.quality with | .good => 0x00#8 | .saturated => 0x01#8 | .stalled => 0x02#8] ++ beBytes 6 y.time
        | none => List.replicate 8 0x00#8
      let rejected := match r.rejection with
        | some y => [BitVec.ofNat 8 y.link.val,
            match y.reason with
            | .echo => 0x00#8 | .tooSoon => 0x01#8 | .pitCancelled => 0x02#8 | .outOfState => 0x03#8] ++
            beBytes 6 y.time
        | none => List.replicate 8 0x00#8
      let last := match r.lastLap with
        | some y => beBytes 2 y.number ++ (match y.time with
            | .timed t => timeEntry t
            | .untimed => [0x06#8, 0x00#8, 0x00#8, 0x00#8, 0x00#8]
            | .unseen => [0x08#8, 0x00#8, 0x00#8, 0x00#8, 0x00#8]) ++ [0#4 ++ y.flags]
        | none => List.replicate 8 0x00#8
      let best := match r.bestLap with
        | some y => beBytes 2 y.number ++ beBytes 4 y.time ++ beBytes 6 y.setTime
        | none => List.replicate 12 0x00#8
      let sectors := r.sectors.flatMap sectorEntry ++
        (match r.lastLap with
          | some y => y.sectors.flatMap sectorEntry | none => List.replicate (5 * s.lineCount) 0x00#8) ++
        (match r.bestLap with
          | some y => y.sectors.flatMap bestSectorEntry | none => List.replicate (5 * s.lineCount) 0x00#8) ++
        r.bestSectors.flatMap bestSectorEntry
      let body := head ++ pit ++ seen ++ rejected ++ last ++ best ++ sectors
      ∃ t, exec (.readRecord a.bytes) s = .next t ∧
        Takes s t .readRecord a.bytes body ∧
        (r.sized s.lineCount → body.length = 125 + 20 * s.lineCount) ∧
        t.order = s.order ∧ KeepsIndex s t ∧ t.session = s.session ∧ (∀ n, n ≠ slot → t.record? n = s.record? n) ∧
        t.record? slot = some (if a.clear then { r with notices := 0 } else r)) ∧
    (∀ (a : AdjustArgs), a.inRange = true → s.record? a.slot = none →
      ∃ t, exec (.adjust a.bytes) s = .next t ∧ Refuses s t .adjust a.bytes .noSuchRecord) ∧
    (∀ (a : ReadRecordArgs), a.who.inRange = true →
      (match a.who with
        | .slot n => s.record? n = none
        | .code c => ∀ n r, s.record? n = some r → r.code ≠ c
        | .car c => ∀ n r, s.record? n = some r → r.car ≠ c) →
      ∃ t, exec (.readRecord a.bytes) s = .next t ∧ Refuses s t .readRecord a.bytes .noSuchRecord)

/-- SET CAPACITY (part of R60): the new limit is stored, unless it would leave a record above it. DISMISS UNKNOWN (part
of R76): one entry, or all, leave the list, and UNKNOWN_FULL is cleared where that is chosen; a code the list does not
hold changes nothing. -/
def Obligations.CapacityAndDismiss : Prop :=
  ∀ s : State, s.ready →
    (∀ n, s.table.legal → 1 ≤ n → n ≤ 128 → s.session.phase ≠ .rolling →
      ∃ t, exec (.setCapacity [BitVec.ofNat 8 n]) s = .next t ∧
        let held := ∃ m r, n < m ∧ s.record? m = some r
        (n < s.table.slotLimit → held → Refuses s t .setCapacity [BitVec.ofNat 8 n] .wrongState) ∧
        (s.table.slotLimit ≤ n ∨ ¬ held →
          Takes s t .setCapacity [BitVec.ofNat 8 n] [] ∧ t.order = s.order ∧ t.session = s.session ∧
          t.table = { s.table with slotLimit := n })) ∧
    (∀ a : DismissArgs, a.code.all codeOk = true →
      ∃ t, exec (.dismissUnknown a.bytes) s = .next t ∧
        let cleared := if a.clearFull then false else s.table.unknownFull
        (a.code = none → Takes s t .dismissUnknown a.bytes [] ∧ t.order = s.order ∧ t.session = s.session ∧
          t.table = { s.table with unknown := [], unknownFull := cleared }) ∧
        (∀ c, a.code = some c →
          ((∃ e ∈ s.table.unknown, e.code = c) →
            Takes s t .dismissUnknown a.bytes [] ∧ t.order = s.order ∧ t.session = s.session ∧
            t.table = { s.table with
              unknown := s.table.unknown.filter (fun e => e.code ≠ c), unknownFull := cleared }) ∧
          ((∀ e ∈ s.table.unknown, e.code ≠ c) → Refuses s t .dismissUnknown a.bytes .noSuchRecord)))

/-- Every step keeps the competitor table legal: records and index agree, one pair for each record (R58); no two records
hold one code or one car number (R53); slots 1 to 128 (part of R60 and R61). With it every step keeps the unknown list
legal: at most 16 entries, distinct codes none of which a record holds, in order of first-seen time and code, sightings 1
to 255 (part of R75). -/
def Obligations.TableKept : Prop :=
  ∀ s t : State, s.table.legal → step s = .next t →
    t.table.legal ∧ (s.table.unknownLegal → t.table.unknownLegal)

/-- A command that changes any field of a record, or frees or fills its slot, leaves the slot in the changed-slot set and
RECORDS pending, but for the two resets (part of R74 and R161). -/
def Obligations.ChangedSlots : Prop :=
  ∀ (c : Instr) (s t : State) (n : Nat), exec c s = .next t → c ≠ .pinReset →
    (∀ a, c ≠ .resetTables a) → t.record? n ≠ s.record? n →
    n ∈ t.report.changed ∧ hasCause t.report.causes .records = true

/-! ## Line scoring -/

/-- A rejected line passing (R83, with the tests of R81 and R82 and the record of R72): seen again at the last position
within the echo guard, or sooner than the sectors it spans allow, it leaves its rejection and the notice REJECTED beside
the sighting, and nothing else. -/
def Obligations.PassingRejected : Prop :=
  ∀ (s : State) (l : LinkNo) (code slot : Nat) (p : OpenPassing) (r : Record) (pos q : Nat),
    LinePassing s l code slot p r pos q →
    ∃ t, exec (.closeExpiry l code) s = .next t ∧
      (isEcho s r q pos p.time ∨ isTooSoon s r q pos p.time →
        PassingGone s t l code ∧ KeepsIndex s t ∧ t.order = s.order ∧ t.session = s.session ∧ Follows s t [] ∧
        (∀ n, n ≠ slot → t.record? n = s.record? n) ∧
        ∃ why, t.record? slot = some { r.seen l p with
            rejection := some { link := l, time := p.time, reason := why },
            notices := addNotice r.notices .rejected } ∧
          (isEcho s r q pos p.time → why = .echo) ∧ (¬ isEcho s r q pos p.time → why = .tooSoon))

/-- A first line passing (R80, with R91 and part of R124): an ENROLLED record becomes RUNNING and joins the order; at
position 0 its lap starts, it is started and its race elapsed is formed; no lap is completed; a started record has its
crossing timed by the lead table. That it joins with its key as the crossing leaves it, the others taking POSITION for
their net move alone, is the model's reading (log 17). -/
def Obligations.FirstLinePassing : Prop :=
  ∀ (s : State) (l : LinkNo) (code slot : Nat) (p : OpenPassing) (r : Record) (pos : Nat), PassingOf s l code slot p r →
    (s.link l).role = .line → (s.link l).linePos = some pos → r.state = .enrolled ∨ r.state = .running →
    r.lastPos = none →
    let started := r.started || decide (pos = 0)
    let c := r.laps * s.lineCount + (pos + 1)
    ∃ t x, exec (.closeExpiry l code) s = .next t ∧ Scored s t l code slot ∧ t.session = s.session ∧
      t.record? slot = some x ∧ x.position.isSome = true ∧
      x = { r.seen l p with
        state := .running,
        lapStart := if pos = 0 then some p.time else r.lapStart,
        started := started,
        elapsed := if pos = 0 then some (elapsedIn s p.time) else r.elapsed,
        lastPos := some pos, lastTime := some p.time, latest := some p.time, delta := none,
        lapFlags := if s.session.phase = .caution then addLap r.lapFlags .caution else r.lapFlags,
        position := x.position,
        notices := if x.position = r.position then r.notices else addNotice r.notices .position,
        gap := if started then some (s.order.outcome s.lineCount c p.time).gap else r.gap } ∧
      (started = false → KeepsLead s t) ∧
      (started = true → t.order.lead = (s.order.take s.lineCount c p.time).lead ∧
        t.order.highest = (s.order.take s.lineCount c p.time).highest)

/-- A scored passing that completes no lap (R84 to R86, R90, R96 and R98 for such a passing, part of R101 and R124): the
sectors spanned take its time or their status, the line state moves on, the live delta is formed against the best lap, and a
started record has its crossing timed by the lead table. An outage that opened at this very instant, before the passing,
excuses as R101 says, where R85 alone would not have it excuse (log 29); so in every statement with a SpanEntry. -/
def Obligations.SectorPassing : Prop :=
  ∀ (s : State) (l : LinkNo) (code slot : Nat) (p : OpenPassing) (r : Record) (pos q : Nat),
    LinePassing s l code slot p r pos q → ¬ isEcho s r q pos p.time → ¬ isTooSoon s r q pos p.time →
    let n := stepCount s.lineCount q pos
    let c := r.laps * s.lineCount + (pos + 1)
    q + n < s.lineCount →
    ∃ t x e, exec (.closeExpiry l code) s = .next t ∧ Scored s t l code slot ∧ t.session = s.session ∧
      t.record? slot = some x ∧ SpanEntry s r q n p.time e ∧
      x = { r.seen l p with
        sectors := spanned r.sectors q (q + n) e,
        lastPos := some pos, lastTime := some p.time, latest := some p.time,
        delta := x.delta, position := x.position, notices := x.notices,
        gap := if r.started then some (s.order.outcome s.lineCount c p.time).gap else r.gap } ∧
      (∀ u b, r.lapStart = some u → r.bestLap = some b → b.sectors.length = s.lineCount →
        (∀ i, i < pos → b.sectors.getD i none ≠ none) →
        x.delta = some (inDeltaRange (((p.time : Int) - (u : Int)) -
          ((((b.sectors.take pos).map (·.getD 0)).sum : Nat) : Int)))) ∧
      (r.lapStart = none ∨ r.bestLap = none ∨
        (∃ b i, r.bestLap = some b ∧ i < pos ∧ b.sectors.getD i none = none) → x.delta = none) ∧
      ∀ m, hasNotice x.notices m = (hasNotice r.notices m || match m with
        | .position => decide (x.position ≠ r.position)
        | .deltaCross => decide (q ≠ 0) && r.lastTime.isSome &&
            (r.delta.any fun a => x.delta.any fun b => signChange s.deltaDirection a b)
        | _ => false) ∧
      (r.started = false → KeepsLead s t) ∧
      (r.started = true → t.order.lead = (s.order.take s.lineCount c p.time).lead ∧
        t.order.highest = (s.order.take s.lineCount c p.time).highest)

/-- A scored passing that completes a lap, in GREEN or CAUTION and bringing no chequer (R87 to R95, and R97 and R98 at a
completion): the count, the last lap with its time or why it has none, the bests, the new lap, the line state, race
elapsed at position 0, the notices, and the crossing's gap. -/
def Obligations.LapCompletes : Prop :=
  ∀ (s : State) (l : LinkNo) (code slot : Nat) (p : OpenPassing) (r : Record) (pos q : Nat),
    LinePassing s l code slot p r pos q → ¬ isEcho s r q pos p.time → ¬ isTooSoon s r q pos p.time →
    let n := stepCount s.lineCount q pos
    let laps := min (r.laps + 1) 65535
    let c := laps * s.lineCount + (pos + 1)
    s.lineCount ≤ q + n →
    (∀ e, ¬ s.chequeredBy slot
      { r with laps := laps, started := true, lastPos := some pos, latest := some p.time } e) →
    ∃ t x e lap, exec (.closeExpiry l code) s = .next t ∧ Scored s t l code slot ∧ t.session = s.session ∧
      t.record? slot = some x ∧ SpanEntry s r q n p.time e ∧
      lap = { number := laps, flags := r.lapFlags, sectors := spanned r.sectors q s.lineCount e,
              time := if pos ≠ 0 then .unseen else match r.lapStart with
                | some u => .timed (min (p.time - u) 4294967295)
                | none => .untimed } ∧
      x = { r.seen l p with
        laps := laps, started := true, lastLap := some lap,
        bestLap := bestAfter r.bestLap lap p.time, bestSectors := bestSectorsAfter r.bestSectors lap,
        delta := match lap.time, r.bestLap with
          | .timed d, some b => some (inDeltaRange ((d : Int) - (b.time : Int)))
          | _, _ => none,
        lapStart := if pos = 0 then some p.time else none,
        sectors := spanned (List.replicate s.lineCount .pending) 0 pos e,
        lapFlags := x.lapFlags,
        elapsed := if pos = 0 then some (elapsedIn s p.time) else r.elapsed,
        lastPos := some pos, latest := some p.time, lastTime := if pos = 0 then some p.time else none,
        position := x.position, notices := x.notices,
        gap := some (s.order.outcome s.lineCount c p.time).gap } ∧
      (∀ f, hasLap x.lapFlags f = match f with
        | .caution => decide (s.session.phase = .caution)
        | .out => hasLap r.lapFlags .pit
        | .suspended | .pit => false) ∧
      (∀ m, hasNotice x.notices m = (hasNotice r.notices m || match m with
        | .lap => true
        | .newBest => decide (x.bestLap ≠ r.bestLap)
        | .position => decide (x.position ≠ r.position)
        | .deltaCross => decide (q ≠ 0) && r.lastTime.isSome &&
            (r.delta.any fun a => x.delta.any fun b => signChange s.deltaDirection a b)
        | _ => false)) ∧
      t.order.lead = (s.order.take s.lineCount c p.time).lead ∧
      t.order.highest = (s.order.take s.lineCount c p.time).highest

/-- A lap that ends in the chequer (R99, R100 and R140 but for what the pit lane brings, part of R141 and R142): completed
while CHEQUERED, it finishes its record; in a RACE that is GREEN or CAUTION the lap limit, or FINISH_PENDING with the
record first in the order, brings CHEQUERED and finishes the record in the same event; the session closes when no record
is left in RUNNING or PIT. The lap counts and is judged as any other (R87, R88, R90, R91, R94, R95, R97, R98): last lap, bests,
live delta, race elapsed, line state, lead table and gap, with no lap in progress left. That POSITION may stand for a move
undone within the event is the model's reading (log 17). -/
def Obligations.LapAtChequer : Prop :=
  ∀ (s : State) (l : LinkNo) (code slot : Nat) (p : OpenPassing) (r : Record) (pos q : Nat),
    LinePassing s l code slot p r pos q → ¬ isEcho s r q pos p.time → ¬ isTooSoon s r q pos p.time →
    let n := stepCount s.lineCount q pos
    let laps := min (r.laps + 1) 65535
    let cr := laps * s.lineCount + (pos + 1)
    let finish := if pos = 0 then some p.time else none
    let chequers := s.chequeredBy slot
      { r with laps := laps, started := true, lastPos := some pos, latest := some p.time }
    s.lineCount ≤ q + n →
    ∃ t x e lap d, exec (.closeExpiry l code) s = .next t ∧ PassingGone s t l code ∧ KeepsIndex s t ∧ t.orderAgrees ∧
      OthersOnlyMoved s t slot ∧ t.record? slot = some x ∧ x.laps = laps ∧ SpanEntry s r q n p.time e ∧
      lap = { number := laps, flags := r.lapFlags, sectors := spanned r.sectors q s.lineCount e,
              time := if pos ≠ 0 then .unseen else match r.lapStart with
                | some u => .timed (min (p.time - u) 4294967295)
                | none => .untimed } ∧
      d = (match lap.time, r.bestLap with
        | .timed u, some b => some (inDeltaRange ((u : Int) - (b.time : Int)))
        | _, _ => none) ∧
      t.order.lead = (s.order.take s.lineCount cr p.time).lead ∧
      t.order.highest = (s.order.take s.lineCount cr p.time).highest ∧
      (∀ c, chequers c → Finishes s t l code slot
        (Record.flagged
          (Record.ended { r.seen l p with
            delta := d, elapsed := if pos = 0 then some (elapsedIn s p.time) else r.elapsed,
            lastPos := some pos, lastTime := finish, gap := some (s.order.outcome s.lineCount cr p.time).gap,
            notices := if decide (q ≠ 0) && r.lastTime.isSome &&
                (r.delta.any fun a => d.any fun b => signChange s.deltaDirection a b) then
              addNotice r.notices .deltaCross else r.notices } lap p.time)
          s.lineCount finish p.time) c) ∧
      ((∀ c, ¬ chequers c) → x.state = .running ∧ t.session = s.session)

/-! ## The pit lane -/

/-- A pit-in passing (R104 to R107, with R99 and R100 for the lap it may complete): the loops left unseen before the entry
take their status, and where the line is among them a lap completes; then the stop opens with its time, the flag PIT joins
the lap and the pit sectors become BYPASSED, unless that lap ends in the chequer, which finishes the record with no stop. A
record already in PIT, and a passing before the latest scored time, are rejected. In what order the record is written, the
list re-keyed and the completion handed on is the model's reading (log 19). -/
def Obligations.PitEntry : Prop :=
  ∀ (s : State) (l : LinkNo) (code slot : Nat) (p : OpenPassing) (r : Record) (c : PitSettings),
    PassingOf s l code slot p r → (s.link l).role = .pitIn → s.circuit.pit = some c → c.inAfter < s.lineCount →
    c.outBefore < s.lineCount → r.sized s.lineCount → (∀ q ∈ r.lastPos, q < s.lineCount) →
    ∃ t, exec (.closeExpiry l code) s = .next t ∧
      (r.state = .pit → Rejects s t l code slot p r .echo) ∧
      (r.state = .running → (∃ u ∈ r.latest, p.time < u) → Rejects s t l code slot p r .outOfState) ∧
      (r.state = .enrolled ∧ r.lastPos = none ∨ r.state = .running ∧ (∀ u ∈ r.latest, u ≤ p.time) →
        ∃ r', Settles s (r.seen l p) c p.time r' ∧
          let laps := ∃ q ∈ r.lastPos, c.inAfter < q
          let chequers := s.chequeredBy slot { r' with latest := some p.time }
          (∀ e, laps → chequers e →
            FinishesAs s t l code slot (r'.flagged s.lineCount none p.time) e) ∧
          ((laps → ∀ e, ¬ chequers e) →
            Scored s t l code slot ∧ t.session = s.session ∧ KeepsLead s t ∧
            ∃ x, t.record? slot = some x ∧ OnlyPlaced (r'.entered s c (some p.time) p.time) x))

/-- A pit-out passing (R108 to R110, R112 and part of R105 and R111, with R99 and R100 for the lap it may complete): the stop
closes with its transit and speed, over the limit as PIT_SPEEDING, and the record rejoins at the position before
pit_out_before without a passing time; where the pit lane skips the line a lap completes at the exit, which finishes the
record where it ends in the chequer. An ENROLLED record starts from the pit lane; a passing before the latest scored time,
and a second one within the echo guard of the exit, are rejected. In what order a completion at the exit is written, keyed
and handed on is the model's reading (log 19). -/
def Obligations.PitExit : Prop :=
  ∀ (s : State) (l : LinkNo) (code slot : Nat) (p : OpenPassing) (r : Record) (c : PitSettings),
    PassingOf s l code slot p r → (s.link l).role = .pitOut → s.circuit.pit = some c → c.inAfter < s.lineCount →
    c.outBefore < s.lineCount → r.sized s.lineCount →
    ∃ t, exec (.closeExpiry l code) s = .next t ∧
      (r.state = .running ∨ r.state = .pit → (∃ u ∈ r.latest, p.time < u) →
        Rejects s t l code slot p r .outOfState) ∧
      (r.state = .running → (∀ u ∈ r.latest, u ≤ p.time) → exitEchoed s r p.time → Rejects s t l code slot p r .echo) ∧
      (r.state = .enrolled → Scored s t l code slot ∧ t.session = s.session ∧ KeepsLead s t ∧
        ∃ x, t.record? slot = some x ∧ OnlyPlaced { r.seen l p with
          state := .running, lastPos := some (s.rejoinAt c), latest := some p.time,
          lapFlags := addLap (if s.session.phase = .caution then addLap r.lapFlags .caution else r.lapFlags) .out } x) ∧
      (r.state = .pit → (∀ u ∈ r.latest, u ≤ p.time) → ∀ y, r.pit = some y → (∀ u ∈ y.entry, u ≤ p.time) →
        let speed := fun (u : Nat) =>
          if p.time = u then 65535 else min (c.length * 360000 / (p.time - u)) 65535
        let closed : PitRecord :=
          match y.entry with
          | some u => { entry := some u, exit := some p.time, transit := some (min (p.time - u) 4294967295),
                        speed := some (speed u), speeding := decide (c.limit < speed u), isOpen := false }
          | none => { y with exit := some p.time, speeding := false, isOpen := false }
        let r' := Record.rejoined
          { r.seen l p with
            pit := some closed,
            notices := if closed.speeding then addNotice r.notices .pitSpeeding else r.notices } s c (some p.time)
        (∀ e, r.lapsAtRejoin c → s.chequeredBy slot r' e →
          FinishesAs s t l code slot (r'.flagged s.lineCount (some p.time) p.time) e) ∧
        ((r.lapsAtRejoin c → ∀ e, ¬ s.chequeredBy slot r' e) →
          Scored s t l code slot ∧ t.session = s.session ∧ KeepsLead s t ∧
          ∃ x, t.record? slot = some x ∧ OnlyPlaced r' x))

/-- The repairs of the pit monitor (R111 but for its echo, R113 and R114). A pit-out passing of a RUNNING record that is no
echo makes the pit entry it missed, without a time, and then is taken as the exit of that stop; a line passing of a record
in PIT at a bypassed position undoes the stop as PIT_CANCELLED and then is scored on the line; one at another position
closes the stop at an exit without a time, rejoins, and then is scored on the line. A lap completed by the entry or by the
inferred rejoin that ends in the chequer finishes the record there. A line passing before the latest scored time, or one
that fails line scoring's tests against the line state it would be scored from, is rejected and the stop stands. In
what order a completion is written, keyed and handed on, and the latest scored time of a finish at the inferred exit, are
the model's reading (log 19). -/
def Obligations.PitRepairs : Prop :=
  ∀ (s : State) (l : LinkNo) (code slot : Nat) (p : OpenPassing) (r : Record) (c : PitSettings),
    PassingOf s l code slot p r → s.circuit.pit = some c → c.inAfter < s.lineCount → c.outBefore < s.lineCount →
    r.sized s.lineCount → (∀ q ∈ r.lastPos, q < s.lineCount) →
    ∃ t, exec (.closeExpiry l code) s = .next t ∧
      ((s.link l).role = .pitOut → r.state = .running → (∀ u ∈ r.latest, u ≤ p.time) → ¬ exitEchoed s r p.time →
        ∃ r', Settles s (r.seen l p) c p.time r' ∧
          let laps := ∃ q ∈ r.lastPos, c.inAfter < q
          let chequers := s.chequeredBy slot { r' with latest := some p.time }
          (∀ e, laps → chequers e →
            FinishesAs s t l code slot (r'.flagged s.lineCount none p.time) e) ∧
          ((laps → ∀ e, ¬ chequers e) →
            MendsThen (.closeExpiry l code) s slot (r'.entered s c none p.time))) ∧
      ∀ pos, (s.link l).role = .line → (s.link l).linePos = some pos → pos < s.lineCount → r.state = .pit →
        let skipped := ∃ i, i < s.bypassed c ∧ (c.inAfter + 1 + i) % s.lineCount = pos
        let back := s.rejoinAt c
        let off := { r with lastPos := some back, lastTime := none }
        ((∃ u ∈ r.latest, p.time < u) → Rejects s t l code slot p r .outOfState) ∧
        ((∀ u ∈ r.latest, u ≤ p.time) → skipped →
          (∀ q ∈ r.lastPos, isEcho s r q pos p.time → Rejects s t l code slot p r .echo) ∧
          (∀ q ∈ r.lastPos, ¬ isEcho s r q pos p.time → isTooSoon s r q pos p.time →
            Rejects s t l code slot p r .tooSoon) ∧
          ((∀ q ∈ r.lastPos, ¬ isEcho s r q pos p.time ∧ ¬ isTooSoon s r q pos p.time) →
            MendsThen (.closeExpiry l code) s slot ((r.seen l p).stopUndone s c l p.time))) ∧
        ((∀ u ∈ r.latest, u ≤ p.time) → ¬ skipped →
          (isEcho s off back pos p.time → Rejects s t l code slot p r .echo) ∧
          (¬ isEcho s off back pos p.time →
            let r' := Record.rejoined
              { r.seen l p with pit := r.pit.map fun y =>
                  { y with exit := none, transit := none, speed := none, speeding := false, isOpen := false } } s c none
            (∀ e, r.lapsAtRejoin c → s.chequeredBy slot r' e →
              FinishesAs s t l code slot (r'.flagged s.lineCount none p.time) e) ∧
            ((r.lapsAtRejoin c → ∀ e, ¬ s.chequeredBy slot r' e) → MendsThen (.closeExpiry l code) s slot r')))

/-! ## The running order -/

/-- A crossing at the lead table (R124 but for the example, part of R123): its entry is replaced when the crossing's
index is new there, or the same and earlier; the gap is 0, the time behind the first over the same index, or the laps
between the highest index and this one; no other entry changes, and H never falls. -/
def Obligations.LeadTable : Prop :=
  ∀ (o : OrderBlock) (lines c t : Nat), o.lead.wf → 1 ≤ lines →
    let o' := o.take lines c t
    let gap := (o.outcome lines c t).gap
    let takes := o'.lead.find (c % 128) = some { index := c, time := t } ∧ gap = .time 0
    let stays := o' = o
    o'.list = o.list ∧ o'.lead.wf ∧ (∀ i, i ≠ c % 128 → o'.lead.find i = o.lead.find i) ∧
    (o.lead.find (c % 128) = none → takes ∧ o'.highest = some (max c (o.highest.getD 0))) ∧
    ∀ e, o.lead.find (c % 128) = some e →
      (e.index < c → takes ∧ o'.highest = some (max c (o.highest.getD 0))) ∧
      (e.index = c → e.time ≤ t → stays ∧ gap = .time (t - e.time)) ∧
      (e.index = c → t < e.time → takes ∧ o'.highest = o.highest) ∧
      (c < e.index → stays ∧ gap = .lapsDown ((o.highest.getD 0 - c) / lines))

/-- The order list (R116, R117 and R118, part of R122): it holds each record that is RUNNING, PIT or FINISHED once and no
other, and of two records in it the one ahead is ahead under the key of the session type. -/
def Obligations.OrderSorted : Prop :=
  ∀ s : State, s.table.records.wf →
    let list := orderOf s.keyType s.table.records
    list.Nodup ∧
    (∀ n, n ∈ list ↔ ∃ r, s.record? n = some r ∧ (r.state = .running ∨ r.state = .pit ∨ r.state = .finished)) ∧
    list.Pairwise fun n m => ∃ a b, s.record? n = some a ∧ s.record? m = some b ∧ aheadUnder s.keyType a n b m

/-- Every step keeps the order list the one the keys fix, with every record's order position its place in it and no gap
outside it (part of R57, R116, R119 and R125). -/
def Obligations.OrderKept : Prop :=
  ∀ s t : State, s.orderAgrees → step s = .next t → t.orderAgrees

/-! ## Sessions -/

/-- SESSION SETUP (R130 step 3 and its effect, part of R122) and ARM (R133, with R15 for what it asks of the map): a setup
is stored unless the configuration is locked, and re-orders the list where its type is new; ARM from IDLE takes the lock
and empties the lead table, and is refused with BAD_CONFIG without a consistent setup, with an invalid line map or pit
settings, or with a record of another session. -/
def Obligations.SetupAndArm : Prop :=
  ∀ s : State, s.ready → s.table.legal → (∀ l, (s.link l).legal) → s.session.phase ≠ .rolling →
    (∀ a : SessionSetup, a.inRange = true → ∃ t, exec (.sessionSetup a.bytes) s = .next t ∧
      let locked := s.session.phase = .armed ∨ s.session.phase = .green ∨ s.session.phase = .caution ∨
        s.session.phase = .suspended ∨ s.session.phase = .chequered
      (locked → Refuses s t .sessionSetup a.bytes .locked) ∧
      (¬ locked → Takes s t .sessionSetup a.bytes [] ∧ t.session = { s.session with setup := some a } ∧
        KeepsIndex s t ∧ KeepsLead s t ∧ t.orderAgrees ∧ EveryOnlyPlaced s t)) ∧
    ∃ t, exec (.arm []) s = .next t ∧
      let consistent := ∃ c ∈ s.session.setup, c.type = .race ∨ c.lapLimit = 0 ∧ c.timeLimit ≠ 0
      let mapValid := (∃ l, (s.link l).role = .line) ∧
        ∀ p, p < s.lineCount → ∃ l, (s.link l).linePos = some p ∧ ∀ j, (s.link j).linePos = some p → j = l
      let pitValid := (∃ l, (s.link l).role = .pitIn ∨ (s.link l).role = .pitOut) →
        ∃ c ∈ s.circuit.pit, c.inAfter < s.lineCount ∧ c.outBefore < s.lineCount
      let current := ∀ n r, s.record? n = some r → r.session = s.session.number
      (s.session.phase ≠ .idle → Refuses s t .arm [] .wrongState) ∧
      (s.session.phase = .idle →
        (¬(consistent ∧ mapValid ∧ pitValid ∧ current) → Refuses s t .arm [] .badConfig) ∧
        (consistent ∧ mapValid ∧ pitValid ∧ current →
          Takes s t .arm [] [] ∧ t.table = s.table ∧ t.order = { s.order with lead := [], highest := none } ∧
          t.session = { s.session with
            phase := .armed, locked := true, greenTime := none, greenSource := none, suspension := none,
            chequerTime := none, chequerCause := none, chequerSlot := none, timeLimitExpiry := none,
            closeExpiry := none, totalSuspended := 0, finishPending := false, incomplete := false, cursor := none }))

/-- GREEN and START_EDGE (R134): from ARMED either takes the session GREEN at the time it is taken, with its source, and
sets the time-limit expiry where there is a limit; START is ignored in every other state, ROLLING included, and acts while a
reply is being built as at any time; GREEN in another state is refused, as BUSY while ROLLING (Refused). -/
def Obligations.Green : Prop :=
  ∀ s : State, s.settled → s.session.legal →
    let goes := fun (source : GreenSource) =>
      { s.session with
        phase := .green, greenTime := some s.now, greenSource := some source,
        timeLimitExpiry := match s.session.setup with
          | some c => if c.timeLimit = 0 then none
            else some (s.now + c.timeLimit * 60000000 + s.session.totalSuspended)
          | none => none }
    (s.report.buffer ≠ .pending → s.session.phase ≠ .rolling → ∃ t, exec (.green []) s = .next t ∧
      (s.session.phase ≠ .armed → Refuses s t .green [] .wrongState) ∧
      (s.session.phase = .armed → Takes s t .green [] [] ∧ t.session = goes .request ∧ t.table = s.table ∧
        t.order = s.order)) ∧
    (s.session.phase ≠ .armed → exec .startEdge s = .next s) ∧
    (s.session.phase = .armed → ∃ t, exec .startEdge s = .next t ∧ t.session = goes .start ∧ t.table = s.table ∧
      t.order = s.order ∧ KeepsTrackside s t ∧ KeepsQueue s t ∧ KeepsPort s t ∧ Reports s t [.session])

/-- CAUTION, CLEAR CAUTION and SUSPEND (R135, R136 and R137): the session's state, the flag CAUTION on every lap in
progress, and the suspension opened with the state to resume and no time-limit expiry; refused in other states. -/
def Obligations.CautionAndSuspend : Prop :=
  ∀ s : State, s.ready → s.table.legal → s.session.phase ≠ .rolling →
    (∃ t, exec (.caution []) s = .next t ∧
      (s.session.phase ≠ .green → Refuses s t .caution [] .wrongState) ∧
      (s.session.phase = .green → Takes s t .caution [] [] ∧ t.session = { s.session with phase := .caution } ∧
        t.order = s.order ∧ KeepsIndex s t ∧ FlagsLaps s t .caution)) ∧
    (∃ t, exec (.clearCaution []) s = .next t ∧
      (s.session.phase ≠ .caution → Refuses s t .clearCaution [] .wrongState) ∧
      (s.session.phase = .caution → Takes s t .clearCaution [] [] ∧
        t.session = { s.session with phase := .green } ∧ t.order = s.order ∧ t.table = s.table)) ∧
    ∃ t, exec (.suspend []) s = .next t ∧
      (s.session.phase ≠ .green → s.session.phase ≠ .caution → Refuses s t .suspend [] .wrongState) ∧
      (s.session.phase = .green ∨ s.session.phase = .caution → Takes s t .suspend [] [] ∧
        t.session = { s.session with
          phase := .suspended, resumeState := some s.session.phase, suspension := some { start := s.now, stop := none },
          timeLimitExpiry := none } ∧
        t.order = s.order ∧ t.table = s.table)

/-- RESUME (R138): the suspension ends and joins the total, the session returns to its resume state, every lap in
progress is flagged SUSPENDED, and the time-limit expiry is set again unless FINISH_PENDING; one already reached happens
at once, as R139 gives. -/
def Obligations.Resume : Prop :=
  ∀ s : State, s.ready → s.table.legal → s.session.legal → s.session.phase ≠ .rolling →
    ∃ t, exec (.resume []) s = .next t ∧
      (s.session.phase ≠ .suspended → Refuses s t .resume [] .wrongState) ∧
      (s.session.phase = .suspended → ∀ back g setup, s.session.resumeState = some back →
        s.session.greenTime = some g → s.session.setup = some setup →
        let c := s.session.unsuspend s.now back
        let expiry := g + setup.timeLimit * 60000000 + c.totalSuspended
        Takes s t .resume [] [] ∧ t.order = s.order ∧ KeepsIndex s t ∧ FlagsLaps s t .suspended ∧
        (setup.timeLimit = 0 ∨ s.session.finishPending = true → t.session = c) ∧
        (setup.timeLimit ≠ 0 → s.session.finishPending = false →
          (s.now < expiry → t.session = { c with timeLimitExpiry := some expiry }) ∧
          (expiry ≤ s.now → setup.type = .race → t.session = { c with finishPending := true }) ∧
          (expiry ≤ s.now → setup.type ≠ .race → EndsAs t (c.chequer s.now .timeLimit none))))

/-- CHEQUER and CLOSE (R141 and R143), TIME_LIMIT_EXPIRY (R139) and CLOSE_TIMEOUT_EXPIRY (R142, Close timeout): the
chequer with its time, cause and close timeout, at once CLOSED when no record is in RUNNING or PIT; the close that ends a
suspension, cancels both expiries and releases the lock; the time limit that chequers a PRACTICE or QUALIFYING and makes
a RACE wait for its leader. The two expiries act while a reply is being built as at any time. -/
def Obligations.ChequerAndClose : Prop :=
  ∀ s : State, s.settled → s.table.legal → s.session.legal →
    let asked := s.report.buffer ≠ .pending ∧ s.session.phase ≠ .rolling
    let running := s.session.phase = .green ∨ s.session.phase = .caution
    let kept := fun (t : State) => t.order = s.order ∧ KeepsTrackside s t ∧ KeepsQueue s t ∧ KeepsPort s t ∧
      t.table = s.table ∧ Reports s t [.session]
    (asked → ∃ t, exec (.chequer []) s = .next t ∧
      (¬ running → s.session.phase ≠ .suspended → Refuses s t .chequer [] .wrongState) ∧
      (running → Takes s t .chequer [] [] ∧ t.order = s.order ∧ t.table = s.table ∧
        EndsAs t (s.session.chequer s.now .request none)) ∧
      (s.session.phase = .suspended → Takes s t .chequer [] [] ∧ t.order = s.order ∧ KeepsIndex s t ∧
        FlagsLaps s t .suspended ∧
        EndsAs t ((s.session.unsuspend s.now .chequered).chequer s.now .request none))) ∧
    (asked → ∃ t, exec (.close []) s = .next t ∧
      let ends := fun (c : Session) => Takes s t .close [] [] ∧ t.order = s.order ∧ t.table = s.table ∧
        t.session = { c.shut with timeLimitExpiry := none, finishPending := false }
      (s.session.phase = .idle ∨ s.session.phase = .closed → Refuses s t .close [] .wrongState) ∧
      (s.session.phase = .armed ∨ running ∨ s.session.phase = .chequered → ends s.session) ∧
      (s.session.phase = .suspended → ends (s.session.unsuspend s.now .closed))) ∧
    (∀ e setup, s.session.timeLimitExpiry = some e → e ≤ s.now → s.session.setup = some setup →
      ∃ t, exec .timeLimitExpiry s = .next t ∧ kept t ∧
        (setup.type = .race →
          t.session = { s.session with timeLimitExpiry := none, finishPending := true }) ∧
        (setup.type ≠ .race → EndsAs t (s.session.chequer s.now .timeLimit none))) ∧
    ∀ e, s.session.phase = .chequered → s.session.closeExpiry = some e → e ≤ s.now →
      ∃ t, exec .closeTimeoutExpiry s = .next t ∧ kept t ∧ t.session = s.session.shut

/-- ROLLOVER (R148, part of R122, R123 and R149) and HALT ROLLOVER (R153): from IDLE or CLOSED the number moves on, the setup
takes the new type, the list is sorted under it, the lead table is emptied, and a cursor is made; the run is over at once
when no record is due (R149). HALT leaves the cursor and sets INCOMPLETE. -/
def Obligations.Rollover : Prop :=
  ∀ s : State, s.ready → s.table.legal →
    (∀ a : RolloverArgs, s.session.phase ≠ .rolling → ∃ t, exec (.rollover a.bytes) s = .next t ∧
      let number := (s.session.number + 1) % 256
      let taken := s.session.phase = .idle ∧ s.session.incomplete = true ∧
        ∃ n r, s.record? n = some r ∧ r.session = number
      let due := ∃ n r, s.record? n = some r ∧ r.session ≠ number
      let rolls := { s.session with
        number := number, incomplete := false, phase := .rolling,
        setup := s.session.setup.map fun c => { c with type := a.type },
        cursor := some { phase := .order, carry := a.carry, newType := a.type, nextGrid := 1, steps := 0,
                         lastSlot := none } }
      (s.session.phase ≠ .idle → s.session.phase ≠ .closed → Refuses s t .rollover a.bytes .wrongState) ∧
      (taken → Refuses s t .rollover a.bytes .badConfig) ∧
      (s.session.phase = .idle ∨ s.session.phase = .closed → ¬ taken →
        Takes s t .rollover a.bytes [] ∧ KeepsIndex s t ∧ EveryOnlyPlaced s t ∧ t.orderAgrees ∧
        t.order.lead = [] ∧ t.order.highest = none ∧
        (due → t.session = rolls) ∧ (¬ due → t.session = { rolls with phase := .idle, cursor := none }))) ∧
    ∃ t, exec (.haltRollover []) s = .next t ∧
      (s.session.phase ≠ .rolling → Refuses s t .haltRollover [] .wrongState) ∧
      (s.session.phase = .rolling → Takes s t .haltRollover [] [] ∧ t.table = s.table ∧ t.order = s.order ∧
        t.session = { s.session with phase := .idle, incomplete := true })

/-- ROLLOVER_STEP (R149, R150, R151 and the end of a run): the record at order position 1, or, with the order empty, the
lowest slot of another session, is reset to ENROLLED, or stays EXCLUDED under KEEP_EXCLUDED, takes the number, its grid
from the count under GRID_FROM_ORDER, and keeps its bests under BESTS; the cursor moves on; when no record is left due the
session is IDLE. That the cursor's phase stays ORDER after the step that empties the order, until the next step is chosen,
is the model's reading (log 20). -/
def Obligations.RolloverStep : Prop :=
  ∀ (s : State) (c : Cursor), s.settled → s.table.legal → s.session.phase = .rolling → s.session.cursor = some c →
    let phase : RollPhase := if c.phase = .order ∧ s.order.list ≠ [] then .order else .slots
    ∃ t, exec .rolloverStep s = .next t ∧ KeepsTrackside s t ∧ KeepsQueue s t ∧ KeepsPort s t ∧ KeepsLead s t ∧
      KeepsIndex s t ∧ t.orderAgrees ∧ Follows s t [] ∧
      (phase = .slots → (∀ n r, s.record? n = some r → r.session = s.session.number) →
        t.table = s.table ∧ t.order = s.order ∧
        t.session = { s.session with phase := .idle, incomplete := false, cursor := none }) ∧
      ∀ slot r, s.record? slot = some r →
        (phase = .order ∧ s.order.list.head? = some slot ∨ phase = .slots ∧ r.session ≠ s.session.number ∧
          ∀ n x, n < slot → s.record? n = some x → x.session = s.session.number) →
        let out := r.state = .excluded ∧ c.carry.keepExcluded = true
        let counts := c.carry.gridFromOrder = true ∧ ¬ out
        OthersOnlyPlaced s t slot ∧
        (∃ x, t.record? slot = some x ∧
          x = { code := r.code, car := r.car, cls := r.cls, grid := x.grid, session := s.session.number,
                state := x.state, retiredFrom := none, laps := 0, started := false, lapStart := none,
                lastPos := none, lastTime := none, latest := none, lapFlags := 0,
                sectors := List.replicate s.lineCount .pending, lastLap := none, delta := none, gap := none,
                position := none, elapsed := none, finish := none, penalty := 0, netAdjust := 0, pitStops := 0,
                pit := none, sighting := none, rejection := none, notices := 0,
                bestLap := if c.carry.bests then r.bestLap else none,
                bestSectors := if c.carry.bests then r.bestSectors else List.replicate s.lineCount none } ∧
          (out → x.state = .excluded) ∧ (¬ out → x.state = .enrolled) ∧
          (c.carry.gridFromOrder = false → x.grid = r.grid) ∧
          (c.carry.gridFromOrder = true → (out → x.grid = none) ∧ (¬ out → x.grid = some c.nextGrid))) ∧
        ∃ k : Cursor, (counts → k.nextGrid = c.nextGrid + 1) ∧ (¬ counts → k.nextGrid = c.nextGrid) ∧
          k = { c with phase := phase, steps := c.steps + 1, lastSlot := some slot, nextGrid := k.nextGrid } ∧
          ((∃ n x, n ≠ slot ∧ s.record? n = some x ∧ x.session ≠ s.session.number) →
            t.session = { s.session with cursor := some k }) ∧
          ((∀ n x, n ≠ slot → s.record? n = some x → x.session = s.session.number) →
            t.session = { s.session with phase := .idle, incomplete := false, cursor := none })

/-- Every step keeps the session controller and every record legal: the lock from ARM to CLOSED, the resume state and an
open suspension exactly while SUSPENDED, the expiries only in the states that hold them, retired-from exactly while
RETIRED, an open pit record exactly while in PIT (8.1, R139, R142, R144, 4.1 and R104). -/
def Obligations.SessionKept : Prop :=
  ∀ s t : State, s.session.legal → (∀ q ∈ s.table.records, q.2.legal) → step s = .next t →
    t.session.legal ∧ ∀ q ∈ t.table.records, q.2.legal

/-! ## The request port, reports and resets -/

/-- READ TIME, READ LOOP, READ UNKNOWN, READ SESSION and READ ORDER (R13, R34, R77, R145 and R128, part of R169 and
R171): each is answered OK with what it reads, field by field, and changes nothing else, the last two unless ROLLING. Open
in the spec and the model's: how the two answers of validity are coded (log 8), the codes of framing, the lock and the
flags (log 9), which optional items share a presence bit (log 10), what unused bits hold (log 11), the low 48 bits of an
expiry beyond them (log 28), and the type READ ORDER reports before any setup (log 26). -/
def Obligations.Reads : Prop :=
  ∀ s : State, s.ready →
    let time := fun (o : Option Nat) => beBytes 6 (o.getD 0)
    let byte := fun (n : Nat) => BitVec.ofNat 8 n
    (∃ t, exec (.readTime []) s = .next t ∧ OnlyReply s t ∧
      Answers s t .readTime [] .ok
        (let c := s.time
         [byte ((if c.lastInterval = none then 0 else 1) + if c.lastEdge = none then 0 else 2)] ++
         beBytes 6 c.now ++ beBytes 4 c.mark ++ [setOrClear c.markLimit] ++
         [match c.source with | .internal => 0x00#8 | .reference => 0x01#8,
          match c.mode with | .free => 0x00#8 | .locked => 0x01#8 | .holdover => 0x02#8,
          match c.monitor with | .absent => 0x00#8 | .qualifying => 0x01#8 | .qualified => 0x02#8] ++
         beBytes 1 c.goodCount ++ [BitVec.ofInt 8 c.trim] ++
         (match c.lastInterval with
          | some i => beBytes 4 i.ticks ++ [match i.verdict with | .good => 0x00#8 | .bad => 0x01#8]
          | none => List.replicate 5 0x00#8) ++
         beBytes 6 (c.lastEdge.getD 0))) ∧
    (∀ l : LinkNo, ∃ t, exec (.readLoop [byte l.val]) s = .next t ∧ OnlyReply s t ∧
      Answers s t .readLoop [byte l.val] .ok
        (let k := s.link l
         let c := k.settings
         let places := (List.finRange 8).map fun j => if (s.link j).role = .line then (s.link j).linePos else none
         beBytes 2 (maskOf ([k.linePos.isSome, k.silenceExpiry.isSome, k.outage.isSome, k.outage.any (·.stop.isSome),
           k.latestHit.isSome, k.noise.isSome] ++ places.map (·.isSome) ++ [s.circuit.pit.isSome])) ++
         [roleByte k.role, byte (k.linePos.getD 0)] ++ beBytes 2 c.latency ++
         [byte c.threshold, byte c.saturation, byte c.closeGap] ++ beBytes 2 c.maxDwell ++
         [byte c.minHits, byte c.maxAge] ++ beBytes 2 c.silence ++
         [match c.liveness with | .mark => 0x00#8 | .traffic => 0x01#8,
          if k.framing = none then 0x01#8 else 0x00#8,
          match k.state with | .off => 0x00#8 | .down => 0x01#8 | .silent => 0x02#8 | .live => 0x03#8] ++
         time k.silenceExpiry ++ time (k.outage.map (·.start)) ++ time (k.outage.bind (·.stop)) ++ time k.latestHit ++
         [byte (k.noise.getD 0)] ++ beBytes 2 k.flags.toNat ++
         places.map (fun o => byte (o.getD 0)) ++
         [byte s.lineCount, Config.answerByte s.lineMapValid, Config.answerByte s.pitValid] ++
         s.circuit.sectorMin.toList.flatMap (beBytes 4) ++
         match s.circuit.pit with
         | some p => [byte p.inAfter, byte p.outBefore] ++ beBytes 4 p.length ++ beBytes 2 p.limit
         | none => List.replicate 8 0x00#8)) ∧
    (∃ t, exec (.readUnknown []) s = .next t ∧ OnlyReply s t ∧
      Answers s t .readUnknown [] .ok
        ([byte s.table.unknown.length, if s.table.unknownFull then 0x01#8 else 0x00#8] ++
         s.table.unknown.flatMap fun e =>
           beBytes 3 e.code ++ beBytes 6 e.first ++ beBytes 6 e.last ++ [byte e.link.val, byte e.sightings])) ∧
    (s.session.phase ≠ .rolling →
      (∃ t, exec (.readSession []) s = .next t ∧ OnlyReply s t ∧
        Answers s t .readSession [] .ok
          (let c := s.session
           let green := decide (c.greenTime ≠ none ∧ c.greenSource ≠ none)
           let count := fun (st : RecState) =>
             byte ((s.table.records.filter fun q => decide (q.2.state = st)).length)
           beBytes 2 (maskOf [c.setup.isSome, green, c.suspension.isSome, c.suspension.any (·.stop.isSome),
             c.resumeState.isSome, c.timeLimitExpiry.isSome, c.chequerTime.isSome, c.chequerCause.isSome,
             c.chequerSlot.isSome, c.closeExpiry.isSome, c.cursor.isSome, c.cursor.any (·.lastSlot.isSome)]) ++
           beBytes 6 s.now ++
           [phaseByte c.phase, setOrClear c.incomplete, setOrClear c.finishPending,
            if c.locked then 0x00#8 else 0x01#8, byte c.number] ++
           (match c.setup with
            | some u => [typeByte u.type] ++ beBytes 2 u.lapLimit ++ beBytes 2 u.timeLimit ++
                [byte u.closeTimeout, byte u.echoGuard,
                 match u.delta with | .off => 0x00#8 | .toAhead => 0x01#8 | .toBehind => 0x02#8 | .both => 0x03#8]
            | none => List.replicate 8 0x00#8) ++
           (match c.greenTime, c.greenSource with
            | some t, some g => beBytes 6 t ++ [match g with | .start => 0x00#8 | .request => 0x01#8]
            | _, _ => List.replicate 7 0x00#8) ++
           beBytes 6 c.totalSuspended ++ time (c.suspension.map (·.start)) ++ time (c.suspension.bind (·.stop)) ++
           [match c.resumeState with | some x => phaseByte x | none => 0x00#8] ++ time c.timeLimitExpiry ++
           time c.chequerTime ++
           [match c.chequerCause with
            | some .request | none => 0x00#8 | some .timeLimit => 0x01#8 | some .leader => 0x02#8
            | some .lapLimit => 0x03#8,
            byte (c.chequerSlot.getD 0)] ++
           time c.closeExpiry ++ [count .running, count .pit] ++
           (match c.cursor with
            | some k => [match k.phase with | .order => 0x00#8 | .slots => 0x01#8,
                byte (maskOf [k.carry.bests, k.carry.gridFromOrder, k.carry.keepExcluded]), typeByte k.newType,
                byte k.nextGrid, byte k.steps]
            | none => List.replicate 5 0x00#8) ++
           [byte ((c.cursor.bind (·.lastSlot)).getD 0)])) ∧
      ∀ a : ReadOrderArgs, a.inRange = true → ∃ t, exec (.readOrder a.bytes) s = .next t ∧ OnlyReply s t ∧
        Answers s t .readOrder a.bytes .ok
          (let n := s.order.list.length
           let rows := min a.count (n - (a.first - 1))
           [byte n, match s.session.setup with | some u => typeByte u.type | none => 0x02#8, byte rows] ++
           (List.range rows).flatMap fun i =>
             let slot := s.order.list.getD (a.first - 1 + i) 0
             match s.record? slot with
             | some r => [byte (a.first + i), byte slot] ++ beBytes 2 r.car ++ [byte r.cls] ++ beBytes 2 r.laps ++
                 [byte (maskOf [r.gap.isSome, decide ((gapEntry r.gap).1 = 1)])] ++ beBytes 6 (gapEntry r.gap).2 ++
                 [recStateByte r.state, 0x00#8]
             | none => []))

/-- READ SUMMARY, READ CHANGES, ACKNOWLEDGE, SET MODERATION and MODERATION_EXPIRY (R160, R162, R164 and R165, with the
latch of R163): the causes, the changed-slot set, the latch and the timer, each as its request leaves them. In the reply of
READ SUMMARY the code of the latch (log 9), the mask (log 10) and the low 48 bits of an expiry beyond them (log 28) are the
model's. The expiry acts while a reply is being built as at any time. -/
def Obligations.Attention : Prop :=
  ∀ s : State, s.settled →
    let asked := s.report.buffer ≠ .pending
    let others := fun (t : State) => KeepsTrackside s t ∧ KeepsRace s t ∧ KeepsQueue s t
    (asked → ∃ t, exec (.readSummary []) s = .next t ∧ others t ∧ KeepsTimer s t ∧ LatchFollows s t ∧
      Answers s t .readSummary [] .ok
        ([if s.report.moderationExpiry = none then 0x00#8 else 0x01#8, BitVec.ofNat 8 s.report.causes.toNat,
          BitVec.ofNat 8 s.report.changed.length, setOrClear s.report.latch,
          BitVec.ofNat 8 s.report.moderation] ++ beBytes 6 (s.report.moderationExpiry.getD 0)) ∧
      t.report.changed = s.report.changed ∧
      ∀ c, hasCause t.report.causes c = (hasCause s.report.causes c && decide (c = .records))) ∧
    (asked → ∃ t, exec (.readChanges []) s = .next t ∧ others t ∧ KeepsTimer s t ∧ LatchFollows s t ∧
      Answers s t .readChanges [] .ok
        ([BitVec.ofNat 8 s.report.changed.length] ++ s.report.changed.map fun n => BitVec.ofNat 8 n) ∧
      t.report.changed = [] ∧
      ∀ c, hasCause t.report.causes c = (hasCause s.report.causes c && decide (c ≠ .records))) ∧
    (asked → ∃ t, exec (.acknowledge []) s = .next t ∧ others t ∧ Answers s t .acknowledge [] .ok [] ∧
      t.report.changed = s.report.changed ∧ t.report.causes = s.report.causes ∧
      t.report.moderation = s.report.moderation ∧
      (s.report.moderation ≠ 0 → t.report.latch = false ∧
        t.report.moderationExpiry = some (s.now + s.report.moderation * 10000)) ∧
      (s.report.moderation = 0 → t.report.latch = decide (s.report.causes ≠ 0#6) ∧
        t.report.moderationExpiry = none)) ∧
    (asked → ∀ n, n ≤ 100 → ∃ t, exec (.setModeration [BitVec.ofNat 8 n]) s = .next t ∧ others t ∧ KeepsNews s t ∧
      Answers s t .setModeration [BitVec.ofNat 8 n] .ok [] ∧ t.report.moderation = n ∧
      t.report.moderationExpiry = s.report.moderationExpiry) ∧
    ∀ e, s.report.moderationExpiry = some e → e ≤ s.now → ∃ t, exec .moderationExpiry s = .next t ∧ others t ∧
      KeepsPort s t ∧ t.report.changed = s.report.changed ∧ t.report.causes = s.report.causes ∧
      t.report.moderation = s.report.moderation ∧ t.report.moderationExpiry = none ∧
      t.report.latch = decide (s.report.causes ≠ 0#6)

/-- FRAME_ERROR, UNKNOWN_KIND, REPLY_SELECTION and REPLY_COMPLETION (part of R156, R157 and R168): a bad frame is
answered at once, with REPLACED where an unread reply is dropped; while a reply is being built any frame is discarded and
marks it OVERRUN; a reply selection shifts out the READY reply, FFh after its end, and sets the read flag with its last
byte, or reads NOT_READY. The marks of a NOT_READY reply are open (log 7). The model's own are the alignment of SDO, whose
bytes are counted after the code byte (log 6), the zero bits beside the marks (log 11), and a completion with no reply
being built, which changes nothing (log 2). -/
def Obligations.Replies : Prop :=
  ∀ s : State, s.report.legal →
    let replaced := decide (s.report.buffer = .ready) && !s.report.readFlag
    let overrun := fun (t : State) (n : Nat) => OnlyReply s t ∧ t.report.buffer = .pending ∧
      t.report.portPhase = .idle ∧ t.report.sdo = List.replicate n 0#8 ∧ t.report.readFlag = s.report.readFlag ∧
      t.report.reply = s.report.reply.map fun r => { r with overrun := true }
    let refused := fun (t : State) (n : Nat) (why : Result) => OnlyReply s t ∧ t.report.buffer = .ready ∧
      t.report.portPhase = .idle ∧ t.report.sdo = List.replicate n 0#8 ∧ t.report.readFlag = false ∧
      t.report.reply = some { kind := none, result := why, replaced := replaced, overrun := false, body := [] }
    (∀ n, ∃ t, exec (.frameError n) s = .next t ∧ (s.report.buffer = .pending → overrun t n) ∧
      (s.report.buffer ≠ .pending → refused t n .frameError)) ∧
    (∀ (k : Byte) (a : List Byte), ∃ t, exec (.unknownKind k a) s = .next t ∧
      (s.report.buffer = .pending → overrun t (a.length + 3)) ∧
      (s.report.buffer ≠ .pending → refused t (a.length + 3) .unknownKind)) ∧
    (∀ (k : RequestKind) (a : List Byte), a.length ≤ 32 → s.report.buffer = .pending →
      ∃ t, exec (k.command a) s = .next t ∧ overrun t (a.length + 3)) ∧
    (∀ n, ∃ t frame, exec (.replySelection n) s = .next t ∧ KeepsTrackside s t ∧ KeepsRace s t ∧ KeepsTimer s t ∧
      KeepsNews s t ∧ t.pending = s.pending ∧ t.report.buffer = s.report.buffer ∧ t.report.reply = s.report.reply ∧
      t.report.portPhase = .idle ∧
      t.report.sdo = frame.take n ++ List.replicate (n - frame.length) 0xff#8 ∧
      (∀ r, s.report.buffer = .ready → s.report.reply = some r → t.freeDraws = s.freeDraws ∧
        t.report.readFlag = (s.report.readFlag || decide (frame.length ≤ n)) ∧
        frame = withCheck ([BitVec.ofNat 8 ((r.kind.map (·.code)).getD 0), BitVec.ofNat 8 (codeIn Result.all r.result),
          BitVec.ofNat 8 ((if r.replaced then 1 else 0) + if r.overrun then 2 else 0)] ++
          beBytes 2 r.body.length ++ r.body)) ∧
      (s.report.buffer ≠ .ready → t.report.readFlag = s.report.readFlag ∧ ∃ marks : Byte, marks.toNat < 4 ∧
        frame = withCheck [BitVec.ofNat 8 (match s.report.buffer, s.report.reply with
          | .pending, some r => (r.kind.map (·.code)).getD 0
          | _, _ => 0), 0x01#8, marks, 0x00#8, 0x00#8])) ∧
    ∃ t, exec .replyCompletion s = .next t ∧ OnlyReply s t ∧ t.report.reply = s.report.reply ∧
      t.report.readFlag = s.report.readFlag ∧ t.report.portPhase = s.report.portPhase ∧
      t.report.sdo = s.report.sdo ∧
      t.report.buffer = if s.report.buffer = .pending then .ready else s.report.buffer

/-- Requests refused before their own rules are reached (part of R59, R132, R152 and R156): argument bytes that spell no
arguments within their ranges, or of the wrong length, are BAD_ARGUMENT in every state; while ROLLING the requests of R152
are BUSY; a slot that is FREE is NO_SUCH_RECORD. Each leaves nothing but its reply. That a clearing choice above 01h is out of
range is the model's reading (log 21). -/
def Obligations.Refused : Prop :=
  ∀ (s : State) (k : RequestKind) (a : List Byte), s.ready → a.length ≤ 32 →
    ∃ t, exec (k.command a) s = .next t ∧
      (¬ Admits k a → Refuses s t k a .badArgument) ∧
      (Admits k a → s.session.phase = .rolling →
        k ∈ [.enrol, .amend, .retire, .reinstate, .exclude, .release, .adjust, .readRecord, .setCapacity, .readOrder,
             .sessionSetup, .arm, .green, .caution, .clearCaution, .suspend, .resume, .chequer, .close, .rollover,
             .readSession] → Refuses s t k a .busy) ∧
      (∀ n, SpellsSlot a n → s.session.phase ≠ .rolling → s.record? n = none →
        k ∈ [.retire, .reinstate, .exclude, .release] → Refuses s t k a .noSuchRecord)

/-- RESET TABLES (R166, with R35, R51, R78, R147 and R155 for the blocks): the records, the index, the unknown list, the
order, the lead table and the session are as after pin reset; links keep their settings, framing and noise level, lose
their flags, outages and passings, and derive their state; the time base, the circuit settings, the moderation setting
and the reply are kept; no cause is raised. -/
def Obligations.ResetTables : Prop :=
  ∀ s : State, s.report.buffer ≠ .pending →
    ∃ t, exec (.resetTables []) s = .next t ∧ Answers s t .resetTables [] .ok [] ∧ t.time = s.time ∧
      t.circuit = s.circuit ∧ KeepsQueue s t ∧
      (∀ l, t.link l = { s.link l with
        flags := 0, outage := none, latestHit := none, silenceExpiry := none, passings := [],
        state := if (s.link l).role = .off then .off else if (s.link l).framing = none then .down else .silent }) ∧
      t.table = { records := [], index := [], unknown := [], unknownFull := false, slotLimit := 128 } ∧
      t.order = { list := [], lead := [], highest := none } ∧
      t.session = { phase := .idle, setup := none, number := 0, incomplete := false, finishPending := false,
                    locked := false, greenTime := none, greenSource := none, totalSuspended := 0, suspension := none,
                    resumeState := none, timeLimitExpiry := none, chequerTime := none, chequerCause := none,
                    chequerSlot := none, closeExpiry := none, cursor := none } ∧
      t.report.changed = [] ∧ t.report.causes = 0#6 ∧ t.report.latch = false ∧ t.attn = false ∧
      t.report.moderation = s.report.moderation ∧ t.report.moderationExpiry = none

/-- Every step keeps the reporting unit legal: RECORDS pending exactly while a slot is in the changed-slot set, the slots
in ascending order, and the latch set exactly when R163 has it: only with a cause pending, and always with one pending
and the timer stopped (R161 and R163 for the part that every event leaves). -/
def Obligations.ReportingKept : Prop :=
  ∀ s t : State, s.report.legal → step s = .next t → t.report.legal
end

