-- ==== Sys2Proof/Laws/State.lean ====
section
/-! SUPPORT. One lemma per field per plain update of State, all true by rfl, so that no proof unfolds a record
update; and what each update leaves of the fields it does not name. -/

namespace Sys2Proof.Machine

variable (s : State)

@[simp] theorem State.setTime_time (t : TimeBase) : (s.setTime t).time = t := rfl
@[simp] theorem State.setTime_links (t : TimeBase) : (s.setTime t).links = s.links := rfl
@[simp] theorem State.setTime_circuit (t : TimeBase) : (s.setTime t).circuit = s.circuit := rfl
@[simp] theorem State.setTime_table (t : TimeBase) : (s.setTime t).table = s.table := rfl
@[simp] theorem State.setTime_order (t : TimeBase) : (s.setTime t).order = s.order := rfl
@[simp] theorem State.setTime_session (t : TimeBase) : (s.setTime t).session = s.session := rfl
@[simp] theorem State.setTime_report (t : TimeBase) : (s.setTime t).report = s.report := rfl
@[simp] theorem State.setTime_freeDraws (t : TimeBase) : (s.setTime t).freeDraws = s.freeDraws := rfl
@[simp] theorem State.setTime_pending (t : TimeBase) : (s.setTime t).pending = s.pending := rfl

@[simp] theorem State.setLink_time (l : LinkNo) (k : Link) : (s.setLink l k).time = s.time := rfl
@[simp] theorem State.setLink_links (l : LinkNo) (k : Link) : (s.setLink l k).links = s.links.set l k := rfl
@[simp] theorem State.setLink_circuit (l : LinkNo) (k : Link) : (s.setLink l k).circuit = s.circuit := rfl
@[simp] theorem State.setLink_table (l : LinkNo) (k : Link) : (s.setLink l k).table = s.table := rfl
@[simp] theorem State.setLink_order (l : LinkNo) (k : Link) : (s.setLink l k).order = s.order := rfl
@[simp] theorem State.setLink_session (l : LinkNo) (k : Link) : (s.setLink l k).session = s.session := rfl
@[simp] theorem State.setLink_report (l : LinkNo) (k : Link) : (s.setLink l k).report = s.report := rfl
@[simp] theorem State.setLink_freeDraws (l : LinkNo) (k : Link) :
    (s.setLink l k).freeDraws = s.freeDraws := rfl
@[simp] theorem State.setLink_pending (l : LinkNo) (k : Link) : (s.setLink l k).pending = s.pending := rfl

@[simp] theorem State.setRecords_time (m : KeyMap Record) : (s.setRecords m).time = s.time := rfl
@[simp] theorem State.setRecords_links (m : KeyMap Record) : (s.setRecords m).links = s.links := rfl
@[simp] theorem State.setRecords_circuit (m : KeyMap Record) : (s.setRecords m).circuit = s.circuit := rfl
@[simp] theorem State.setRecords_table (m : KeyMap Record) :
    (s.setRecords m).table = { s.table with records := m } := rfl
@[simp] theorem State.setRecords_order (m : KeyMap Record) : (s.setRecords m).order = s.order := rfl
@[simp] theorem State.setRecords_session (m : KeyMap Record) : (s.setRecords m).session = s.session := rfl
@[simp] theorem State.setRecords_report (m : KeyMap Record) : (s.setRecords m).report = s.report := rfl
@[simp] theorem State.setRecords_freeDraws (m : KeyMap Record) :
    (s.setRecords m).freeDraws = s.freeDraws := rfl
@[simp] theorem State.setRecords_pending (m : KeyMap Record) : (s.setRecords m).pending = s.pending := rfl

@[simp] theorem State.setIndex_time (m : KeyMap Nat) : (s.setIndex m).time = s.time := rfl
@[simp] theorem State.setIndex_links (m : KeyMap Nat) : (s.setIndex m).links = s.links := rfl
@[simp] theorem State.setIndex_circuit (m : KeyMap Nat) : (s.setIndex m).circuit = s.circuit := rfl
@[simp] theorem State.setIndex_table (m : KeyMap Nat) :
    (s.setIndex m).table = { s.table with index := m } := rfl
@[simp] theorem State.setIndex_order (m : KeyMap Nat) : (s.setIndex m).order = s.order := rfl
@[simp] theorem State.setIndex_session (m : KeyMap Nat) : (s.setIndex m).session = s.session := rfl
@[simp] theorem State.setIndex_report (m : KeyMap Nat) : (s.setIndex m).report = s.report := rfl
@[simp] theorem State.setIndex_freeDraws (m : KeyMap Nat) : (s.setIndex m).freeDraws = s.freeDraws := rfl
@[simp] theorem State.setIndex_pending (m : KeyMap Nat) : (s.setIndex m).pending = s.pending := rfl

@[simp] theorem State.setUnknown_time (u : List UnknownEntry) : (s.setUnknown u).time = s.time := rfl
@[simp] theorem State.setUnknown_links (u : List UnknownEntry) : (s.setUnknown u).links = s.links := rfl
@[simp] theorem State.setUnknown_circuit (u : List UnknownEntry) : (s.setUnknown u).circuit = s.circuit := rfl
@[simp] theorem State.setUnknown_table (u : List UnknownEntry) :
    (s.setUnknown u).table = { s.table with unknown := u } := rfl
@[simp] theorem State.setUnknown_order (u : List UnknownEntry) : (s.setUnknown u).order = s.order := rfl
@[simp] theorem State.setUnknown_session (u : List UnknownEntry) : (s.setUnknown u).session = s.session := rfl
@[simp] theorem State.setUnknown_report (u : List UnknownEntry) : (s.setUnknown u).report = s.report := rfl
@[simp] theorem State.setUnknown_freeDraws (u : List UnknownEntry) :
    (s.setUnknown u).freeDraws = s.freeDraws := rfl
@[simp] theorem State.setUnknown_pending (u : List UnknownEntry) : (s.setUnknown u).pending = s.pending := rfl

@[simp] theorem State.setSession_time (c : Session) : (s.setSession c).time = s.time := rfl
@[simp] theorem State.setSession_links (c : Session) : (s.setSession c).links = s.links := rfl
@[simp] theorem State.setSession_circuit (c : Session) : (s.setSession c).circuit = s.circuit := rfl
@[simp] theorem State.setSession_table (c : Session) : (s.setSession c).table = s.table := rfl
@[simp] theorem State.setSession_order (c : Session) : (s.setSession c).order = s.order := rfl
@[simp] theorem State.setSession_session (c : Session) : (s.setSession c).session = c := rfl
@[simp] theorem State.setSession_report (c : Session) : (s.setSession c).report = s.report := rfl
@[simp] theorem State.setSession_freeDraws (c : Session) : (s.setSession c).freeDraws = s.freeDraws := rfl
@[simp] theorem State.setSession_pending (c : Session) : (s.setSession c).pending = s.pending := rfl

@[simp] theorem State.raise_time (c : Cause) : (s.raise c).time = s.time := rfl
@[simp] theorem State.raise_links (c : Cause) : (s.raise c).links = s.links := rfl
@[simp] theorem State.raise_circuit (c : Cause) : (s.raise c).circuit = s.circuit := rfl
@[simp] theorem State.raise_table (c : Cause) : (s.raise c).table = s.table := rfl
@[simp] theorem State.raise_order (c : Cause) : (s.raise c).order = s.order := rfl
@[simp] theorem State.raise_session (c : Cause) : (s.raise c).session = s.session := rfl
@[simp] theorem State.raise_report (c : Cause) :
    (s.raise c).report = { s.report with causes := addCause s.report.causes c } := rfl
@[simp] theorem State.raise_freeDraws (c : Cause) : (s.raise c).freeDraws = s.freeDraws := rfl
@[simp] theorem State.raise_pending (c : Cause) : (s.raise c).pending = s.pending := rfl

@[simp] theorem State.markChanged_time (n : Nat) : (s.markChanged n).time = s.time := rfl
@[simp] theorem State.markChanged_links (n : Nat) : (s.markChanged n).links = s.links := rfl
@[simp] theorem State.markChanged_circuit (n : Nat) : (s.markChanged n).circuit = s.circuit := rfl
@[simp] theorem State.markChanged_table (n : Nat) : (s.markChanged n).table = s.table := rfl
@[simp] theorem State.markChanged_order (n : Nat) : (s.markChanged n).order = s.order := rfl
@[simp] theorem State.markChanged_session (n : Nat) : (s.markChanged n).session = s.session := rfl
@[simp] theorem State.markChanged_report (n : Nat) :
    (s.markChanged n).report = { s.report with changed := joinSlot n s.report.changed } := rfl
@[simp] theorem State.markChanged_freeDraws (n : Nat) : (s.markChanged n).freeDraws = s.freeDraws := rfl
@[simp] theorem State.markChanged_pending (n : Nat) : (s.markChanged n).pending = s.pending := rfl

@[simp] theorem State.settleAttention_time : s.settleAttention.time = s.time := rfl
@[simp] theorem State.settleAttention_links : s.settleAttention.links = s.links := rfl
@[simp] theorem State.settleAttention_circuit : s.settleAttention.circuit = s.circuit := rfl
@[simp] theorem State.settleAttention_table : s.settleAttention.table = s.table := rfl
@[simp] theorem State.settleAttention_order : s.settleAttention.order = s.order := rfl
@[simp] theorem State.settleAttention_session : s.settleAttention.session = s.session := rfl
@[simp] theorem State.settleAttention_report :
    s.settleAttention.report = s.report.syncRecords.settleLatch := rfl
@[simp] theorem State.settleAttention_freeDraws : s.settleAttention.freeDraws = s.freeDraws := rfl
@[simp] theorem State.settleAttention_pending : s.settleAttention.pending = s.pending := rfl

@[simp] theorem State.shiftOut_time (bs : List Byte) : (s.shiftOut bs).time = s.time := rfl
@[simp] theorem State.shiftOut_links (bs : List Byte) : (s.shiftOut bs).links = s.links := rfl
@[simp] theorem State.shiftOut_circuit (bs : List Byte) : (s.shiftOut bs).circuit = s.circuit := rfl
@[simp] theorem State.shiftOut_table (bs : List Byte) : (s.shiftOut bs).table = s.table := rfl
@[simp] theorem State.shiftOut_order (bs : List Byte) : (s.shiftOut bs).order = s.order := rfl
@[simp] theorem State.shiftOut_session (bs : List Byte) : (s.shiftOut bs).session = s.session := rfl
@[simp] theorem State.shiftOut_report (bs : List Byte) :
    (s.shiftOut bs).report = { s.report with sdo := bs, portPhase := .idle } := rfl
@[simp] theorem State.shiftOut_freeDraws (bs : List Byte) : (s.shiftOut bs).freeDraws = s.freeDraws := rfl
@[simp] theorem State.shiftOut_pending (bs : List Byte) : (s.shiftOut bs).pending = s.pending := rfl

@[simp] theorem State.shiftZeros_time (n : Nat) : (s.shiftZeros n).time = s.time := rfl
@[simp] theorem State.shiftZeros_links (n : Nat) : (s.shiftZeros n).links = s.links := rfl
@[simp] theorem State.shiftZeros_circuit (n : Nat) : (s.shiftZeros n).circuit = s.circuit := rfl
@[simp] theorem State.shiftZeros_table (n : Nat) : (s.shiftZeros n).table = s.table := rfl
@[simp] theorem State.shiftZeros_order (n : Nat) : (s.shiftZeros n).order = s.order := rfl
@[simp] theorem State.shiftZeros_session (n : Nat) : (s.shiftZeros n).session = s.session := rfl
@[simp] theorem State.shiftZeros_report (n : Nat) :
    (s.shiftZeros n).report = { s.report with sdo := List.replicate n 0#8, portPhase := .idle } := rfl
@[simp] theorem State.shiftZeros_freeDraws (n : Nat) : (s.shiftZeros n).freeDraws = s.freeDraws := rfl
@[simp] theorem State.shiftZeros_pending (n : Nat) : (s.shiftZeros n).pending = s.pending := rfl

@[simp] theorem State.overrun_time : s.overrun.time = s.time := rfl
@[simp] theorem State.overrun_links : s.overrun.links = s.links := rfl
@[simp] theorem State.overrun_circuit : s.overrun.circuit = s.circuit := rfl
@[simp] theorem State.overrun_table : s.overrun.table = s.table := rfl
@[simp] theorem State.overrun_order : s.overrun.order = s.order := rfl
@[simp] theorem State.overrun_session : s.overrun.session = s.session := rfl
@[simp] theorem State.overrun_report :
    s.overrun.report = { s.report with reply := s.report.reply.map fun r => { r with overrun := true } } := rfl
@[simp] theorem State.overrun_freeDraws : s.overrun.freeDraws = s.freeDraws := rfl
@[simp] theorem State.overrun_pending : s.overrun.pending = s.pending := rfl

@[simp] theorem State.loadReply_time (k : Option RequestKind) (w : Result) (b : List Byte) :
    (s.loadReply k w b).time = s.time := rfl
@[simp] theorem State.loadReply_links (k : Option RequestKind) (w : Result) (b : List Byte) :
    (s.loadReply k w b).links = s.links := rfl
@[simp] theorem State.loadReply_circuit (k : Option RequestKind) (w : Result) (b : List Byte) :
    (s.loadReply k w b).circuit = s.circuit := rfl
@[simp] theorem State.loadReply_table (k : Option RequestKind) (w : Result) (b : List Byte) :
    (s.loadReply k w b).table = s.table := rfl
@[simp] theorem State.loadReply_order (k : Option RequestKind) (w : Result) (b : List Byte) :
    (s.loadReply k w b).order = s.order := rfl
@[simp] theorem State.loadReply_session (k : Option RequestKind) (w : Result) (b : List Byte) :
    (s.loadReply k w b).session = s.session := rfl
@[simp] theorem State.loadReply_freeDraws (k : Option RequestKind) (w : Result) (b : List Byte) :
    (s.loadReply k w b).freeDraws = s.freeDraws := rfl
@[simp] theorem State.loadReply_pending (k : Option RequestKind) (w : Result) (b : List Byte) :
    (s.loadReply k w b).pending = s.pending := rfl

@[simp] theorem State.completeReply_time : s.completeReply.time = s.time := rfl
@[simp] theorem State.completeReply_links : s.completeReply.links = s.links := rfl
@[simp] theorem State.completeReply_circuit : s.completeReply.circuit = s.circuit := rfl
@[simp] theorem State.completeReply_table : s.completeReply.table = s.table := rfl
@[simp] theorem State.completeReply_order : s.completeReply.order = s.order := rfl
@[simp] theorem State.completeReply_session : s.completeReply.session = s.session := rfl
@[simp] theorem State.completeReply_freeDraws : s.completeReply.freeDraws = s.freeDraws := rfl
@[simp] theorem State.completeReply_pending : s.completeReply.pending = s.pending := rfl

@[simp] theorem State.emptyLead_time : s.emptyLead.time = s.time := rfl
@[simp] theorem State.emptyLead_links : s.emptyLead.links = s.links := rfl
@[simp] theorem State.emptyLead_circuit : s.emptyLead.circuit = s.circuit := rfl
@[simp] theorem State.emptyLead_table : s.emptyLead.table = s.table := rfl
@[simp] theorem State.emptyLead_order :
    s.emptyLead.order = { s.order with lead := [], highest := none } := rfl
@[simp] theorem State.emptyLead_session : s.emptyLead.session = s.session := rfl
@[simp] theorem State.emptyLead_report : s.emptyLead.report = s.report := rfl
@[simp] theorem State.emptyLead_freeDraws : s.emptyLead.freeDraws = s.freeDraws := rfl
@[simp] theorem State.emptyLead_pending : s.emptyLead.pending = s.pending := rfl

@[simp] theorem State.emptyChanged_time : s.emptyChanged.time = s.time := rfl
@[simp] theorem State.emptyChanged_links : s.emptyChanged.links = s.links := rfl
@[simp] theorem State.emptyChanged_circuit : s.emptyChanged.circuit = s.circuit := rfl
@[simp] theorem State.emptyChanged_table : s.emptyChanged.table = s.table := rfl
@[simp] theorem State.emptyChanged_order : s.emptyChanged.order = s.order := rfl
@[simp] theorem State.emptyChanged_session : s.emptyChanged.session = s.session := rfl
@[simp] theorem State.emptyChanged_report : s.emptyChanged.report = { s.report with changed := [] } := rfl
@[simp] theorem State.emptyChanged_freeDraws : s.emptyChanged.freeDraws = s.freeDraws := rfl
@[simp] theorem State.emptyChanged_pending : s.emptyChanged.pending = s.pending := rfl

@[simp] theorem State.dropCauses_time : s.dropCauses.time = s.time := rfl
@[simp] theorem State.dropCauses_links : s.dropCauses.links = s.links := rfl
@[simp] theorem State.dropCauses_circuit : s.dropCauses.circuit = s.circuit := rfl
@[simp] theorem State.dropCauses_table : s.dropCauses.table = s.table := rfl
@[simp] theorem State.dropCauses_order : s.dropCauses.order = s.order := rfl
@[simp] theorem State.dropCauses_session : s.dropCauses.session = s.session := rfl
@[simp] theorem State.dropCauses_freeDraws : s.dropCauses.freeDraws = s.freeDraws := rfl
@[simp] theorem State.dropCauses_pending : s.dropCauses.pending = s.pending := rfl

@[simp] theorem State.endModeration_time : s.endModeration.time = s.time := rfl
@[simp] theorem State.endModeration_links : s.endModeration.links = s.links := rfl
@[simp] theorem State.endModeration_circuit : s.endModeration.circuit = s.circuit := rfl
@[simp] theorem State.endModeration_table : s.endModeration.table = s.table := rfl
@[simp] theorem State.endModeration_order : s.endModeration.order = s.order := rfl
@[simp] theorem State.endModeration_session : s.endModeration.session = s.session := rfl
@[simp] theorem State.endModeration_report :
    s.endModeration.report = { s.report with moderationExpiry := none } := rfl
@[simp] theorem State.endModeration_freeDraws : s.endModeration.freeDraws = s.freeDraws := rfl
@[simp] theorem State.endModeration_pending : s.endModeration.pending = s.pending := rfl

@[simp] theorem State.setPassings_time (l : LinkNo) (m : KeyMap Entry) :
    (s.setPassings l m).time = s.time := rfl
@[simp] theorem State.setPassings_links (l : LinkNo) (m : KeyMap Entry) :
    (s.setPassings l m).links = s.links.set l { s.link l with passings := m } := rfl
@[simp] theorem State.setPassings_circuit (l : LinkNo) (m : KeyMap Entry) :
    (s.setPassings l m).circuit = s.circuit := rfl
@[simp] theorem State.setPassings_table (l : LinkNo) (m : KeyMap Entry) :
    (s.setPassings l m).table = s.table := rfl
@[simp] theorem State.setPassings_order (l : LinkNo) (m : KeyMap Entry) :
    (s.setPassings l m).order = s.order := rfl
@[simp] theorem State.setPassings_session (l : LinkNo) (m : KeyMap Entry) :
    (s.setPassings l m).session = s.session := rfl
@[simp] theorem State.setPassings_report (l : LinkNo) (m : KeyMap Entry) :
    (s.setPassings l m).report = s.report := rfl
@[simp] theorem State.setPassings_freeDraws (l : LinkNo) (m : KeyMap Entry) :
    (s.setPassings l m).freeDraws = s.freeDraws := rfl
@[simp] theorem State.setPassings_pending (l : LinkNo) (m : KeyMap Entry) :
    (s.setPassings l m).pending = s.pending := rfl

@[simp] theorem State.setSectorMin_time (a : SetSectorArgs) : (s.setSectorMin a).time = s.time := rfl
@[simp] theorem State.setSectorMin_links (a : SetSectorArgs) : (s.setSectorMin a).links = s.links := rfl
@[simp] theorem State.setSectorMin_table (a : SetSectorArgs) : (s.setSectorMin a).table = s.table := rfl
@[simp] theorem State.setSectorMin_order (a : SetSectorArgs) : (s.setSectorMin a).order = s.order := rfl
@[simp] theorem State.setSectorMin_session (a : SetSectorArgs) : (s.setSectorMin a).session = s.session := rfl
@[simp] theorem State.setSectorMin_report (a : SetSectorArgs) : (s.setSectorMin a).report = s.report := rfl
@[simp] theorem State.setSectorMin_freeDraws (a : SetSectorArgs) :
    (s.setSectorMin a).freeDraws = s.freeDraws := rfl
@[simp] theorem State.setSectorMin_pending (a : SetSectorArgs) : (s.setSectorMin a).pending = s.pending := rfl

@[simp] theorem State.setPit_time (a : PitSettings) : (s.setPit a).time = s.time := rfl
@[simp] theorem State.setPit_links (a : PitSettings) : (s.setPit a).links = s.links := rfl
@[simp] theorem State.setPit_circuit (a : PitSettings) :
    (s.setPit a).circuit = { s.circuit with pit := some a } := rfl
@[simp] theorem State.setPit_table (a : PitSettings) : (s.setPit a).table = s.table := rfl
@[simp] theorem State.setPit_order (a : PitSettings) : (s.setPit a).order = s.order := rfl
@[simp] theorem State.setPit_session (a : PitSettings) : (s.setPit a).session = s.session := rfl
@[simp] theorem State.setPit_report (a : PitSettings) : (s.setPit a).report = s.report := rfl
@[simp] theorem State.setPit_freeDraws (a : PitSettings) : (s.setPit a).freeDraws = s.freeDraws := rfl
@[simp] theorem State.setPit_pending (a : PitSettings) : (s.setPit a).pending = s.pending := rfl

/-! ## What the readers of State see of each update -/

@[simp] theorem State.setTime_link (t : TimeBase) (i : LinkNo) :
    (s.setTime t).link i = s.link i := rfl
@[simp] theorem State.setTime_lineCount (t : TimeBase) :
    (s.setTime t).lineCount = s.lineCount := rfl
@[simp] theorem State.setTime_record (t : TimeBase) (i : Nat) :
    (s.setTime t).record? i = s.record? i := rfl
@[simp] theorem State.setTime_keyType (t : TimeBase) :
    (s.setTime t).keyType = s.keyType := rfl
@[simp] theorem State.setTime_countIn (t : TimeBase) (st : RecState) :
    (s.setTime t).countIn st = s.countIn st := rfl
@[simp] theorem State.setTime_attn (t : TimeBase) :
    (s.setTime t).attn = s.attn := rfl

@[simp] theorem State.setLink_now (l : LinkNo) (k : Link) :
    (s.setLink l k).now = s.now := rfl
@[simp] theorem State.setLink_record (l : LinkNo) (k : Link) (i : Nat) :
    (s.setLink l k).record? i = s.record? i := rfl
@[simp] theorem State.setLink_keyType (l : LinkNo) (k : Link) :
    (s.setLink l k).keyType = s.keyType := rfl
@[simp] theorem State.setLink_countIn (l : LinkNo) (k : Link) (st : RecState) :
    (s.setLink l k).countIn st = s.countIn st := rfl
@[simp] theorem State.setLink_attn (l : LinkNo) (k : Link) :
    (s.setLink l k).attn = s.attn := rfl

@[simp] theorem State.setRecords_now (m : KeyMap Record) :
    (s.setRecords m).now = s.now := rfl
@[simp] theorem State.setRecords_link (m : KeyMap Record) (i : LinkNo) :
    (s.setRecords m).link i = s.link i := rfl
@[simp] theorem State.setRecords_lineCount (m : KeyMap Record) :
    (s.setRecords m).lineCount = s.lineCount := rfl
@[simp] theorem State.setRecords_keyType (m : KeyMap Record) :
    (s.setRecords m).keyType = s.keyType := rfl
@[simp] theorem State.setRecords_attn (m : KeyMap Record) :
    (s.setRecords m).attn = s.attn := rfl

@[simp] theorem State.setIndex_now (m : KeyMap Nat) :
    (s.setIndex m).now = s.now := rfl
@[simp] theorem State.setIndex_link (m : KeyMap Nat) (i : LinkNo) :
    (s.setIndex m).link i = s.link i := rfl
@[simp] theorem State.setIndex_lineCount (m : KeyMap Nat) :
    (s.setIndex m).lineCount = s.lineCount := rfl
@[simp] theorem State.setIndex_record (m : KeyMap Nat) (i : Nat) :
    (s.setIndex m).record? i = s.record? i := rfl
@[simp] theorem State.setIndex_keyType (m : KeyMap Nat) :
    (s.setIndex m).keyType = s.keyType := rfl
@[simp] theorem State.setIndex_countIn (m : KeyMap Nat) (st : RecState) :
    (s.setIndex m).countIn st = s.countIn st := rfl
@[simp] theorem State.setIndex_attn (m : KeyMap Nat) :
    (s.setIndex m).attn = s.attn := rfl

@[simp] theorem State.setUnknown_now (u : List UnknownEntry) :
    (s.setUnknown u).now = s.now := rfl
@[simp] theorem State.setUnknown_link (u : List UnknownEntry) (i : LinkNo) :
    (s.setUnknown u).link i = s.link i := rfl
@[simp] theorem State.setUnknown_lineCount (u : List UnknownEntry) :
    (s.setUnknown u).lineCount = s.lineCount := rfl
@[simp] theorem State.setUnknown_record (u : List UnknownEntry) (i : Nat) :
    (s.setUnknown u).record? i = s.record? i := rfl
@[simp] theorem State.setUnknown_keyType (u : List UnknownEntry) :
    (s.setUnknown u).keyType = s.keyType := rfl
@[simp] theorem State.setUnknown_countIn (u : List UnknownEntry) (st : RecState) :
    (s.setUnknown u).countIn st = s.countIn st := rfl
@[simp] theorem State.setUnknown_attn (u : List UnknownEntry) :
    (s.setUnknown u).attn = s.attn := rfl

@[simp] theorem State.setSession_now (c : Session) :
    (s.setSession c).now = s.now := rfl
@[simp] theorem State.setSession_link (c : Session) (i : LinkNo) :
    (s.setSession c).link i = s.link i := rfl
@[simp] theorem State.setSession_lineCount (c : Session) :
    (s.setSession c).lineCount = s.lineCount := rfl
@[simp] theorem State.setSession_record (c : Session) (i : Nat) :
    (s.setSession c).record? i = s.record? i := rfl
@[simp] theorem State.setSession_countIn (c : Session) (st : RecState) :
    (s.setSession c).countIn st = s.countIn st := rfl
@[simp] theorem State.setSession_attn (c : Session) :
    (s.setSession c).attn = s.attn := rfl

@[simp] theorem State.raise_now (c : Cause) :
    (s.raise c).now = s.now := rfl
@[simp] theorem State.raise_link (c : Cause) (i : LinkNo) :
    (s.raise c).link i = s.link i := rfl
@[simp] theorem State.raise_lineCount (c : Cause) :
    (s.raise c).lineCount = s.lineCount := rfl
@[simp] theorem State.raise_record (c : Cause) (i : Nat) :
    (s.raise c).record? i = s.record? i := rfl
@[simp] theorem State.raise_keyType (c : Cause) :
    (s.raise c).keyType = s.keyType := rfl
@[simp] theorem State.raise_countIn (c : Cause) (st : RecState) :
    (s.raise c).countIn st = s.countIn st := rfl

@[simp] theorem State.markChanged_now (n : Nat) :
    (s.markChanged n).now = s.now := rfl
@[simp] theorem State.markChanged_link (n : Nat) (i : LinkNo) :
    (s.markChanged n).link i = s.link i := rfl
@[simp] theorem State.markChanged_lineCount (n : Nat) :
    (s.markChanged n).lineCount = s.lineCount := rfl
@[simp] theorem State.markChanged_record (n : Nat) (i : Nat) :
    (s.markChanged n).record? i = s.record? i := rfl
@[simp] theorem State.markChanged_keyType (n : Nat) :
    (s.markChanged n).keyType = s.keyType := rfl
@[simp] theorem State.markChanged_countIn (n : Nat) (st : RecState) :
    (s.markChanged n).countIn st = s.countIn st := rfl

@[simp] theorem State.settleAttention_now :
    s.settleAttention.now = s.now := rfl
@[simp] theorem State.settleAttention_link (i : LinkNo) :
    s.settleAttention.link i = s.link i := rfl
@[simp] theorem State.settleAttention_lineCount :
    s.settleAttention.lineCount = s.lineCount := rfl
@[simp] theorem State.settleAttention_record (i : Nat) :
    s.settleAttention.record? i = s.record? i := rfl
@[simp] theorem State.settleAttention_keyType :
    s.settleAttention.keyType = s.keyType := rfl
@[simp] theorem State.settleAttention_countIn (st : RecState) :
    s.settleAttention.countIn st = s.countIn st := rfl

@[simp] theorem State.shiftOut_now (bs : List Byte) :
    (s.shiftOut bs).now = s.now := rfl
@[simp] theorem State.shiftOut_link (bs : List Byte) (i : LinkNo) :
    (s.shiftOut bs).link i = s.link i := rfl
@[simp] theorem State.shiftOut_lineCount (bs : List Byte) :
    (s.shiftOut bs).lineCount = s.lineCount := rfl
@[simp] theorem State.shiftOut_record (bs : List Byte) (i : Nat) :
    (s.shiftOut bs).record? i = s.record? i := rfl
@[simp] theorem State.shiftOut_keyType (bs : List Byte) :
    (s.shiftOut bs).keyType = s.keyType := rfl
@[simp] theorem State.shiftOut_countIn (bs : List Byte) (st : RecState) :
    (s.shiftOut bs).countIn st = s.countIn st := rfl

@[simp] theorem State.shiftZeros_now (n : Nat) :
    (s.shiftZeros n).now = s.now := rfl
@[simp] theorem State.shiftZeros_link (n : Nat) (i : LinkNo) :
    (s.shiftZeros n).link i = s.link i := rfl
@[simp] theorem State.shiftZeros_lineCount (n : Nat) :
    (s.shiftZeros n).lineCount = s.lineCount := rfl
@[simp] theorem State.shiftZeros_record (n : Nat) (i : Nat) :
    (s.shiftZeros n).record? i = s.record? i := rfl
@[simp] theorem State.shiftZeros_keyType (n : Nat) :
    (s.shiftZeros n).keyType = s.keyType := rfl
@[simp] theorem State.shiftZeros_countIn (n : Nat) (st : RecState) :
    (s.shiftZeros n).countIn st = s.countIn st := rfl

@[simp] theorem State.overrun_now :
    s.overrun.now = s.now := rfl
@[simp] theorem State.overrun_link (i : LinkNo) :
    s.overrun.link i = s.link i := rfl
@[simp] theorem State.overrun_lineCount :
    s.overrun.lineCount = s.lineCount := rfl
@[simp] theorem State.overrun_record (i : Nat) :
    s.overrun.record? i = s.record? i := rfl
@[simp] theorem State.overrun_keyType :
    s.overrun.keyType = s.keyType := rfl
@[simp] theorem State.overrun_countIn (st : RecState) :
    s.overrun.countIn st = s.countIn st := rfl

@[simp] theorem State.loadReply_now (k : Option RequestKind) (w : Result) (b : List Byte) :
    (s.loadReply k w b).now = s.now := rfl
@[simp] theorem State.loadReply_link (k : Option RequestKind) (w : Result) (b : List Byte) (i : LinkNo) :
    (s.loadReply k w b).link i = s.link i := rfl
@[simp] theorem State.loadReply_lineCount (k : Option RequestKind) (w : Result) (b : List Byte) :
    (s.loadReply k w b).lineCount = s.lineCount := rfl
@[simp] theorem State.loadReply_record (k : Option RequestKind) (w : Result) (b : List Byte) (i : Nat) :
    (s.loadReply k w b).record? i = s.record? i := rfl
@[simp] theorem State.loadReply_keyType (k : Option RequestKind) (w : Result) (b : List Byte) :
    (s.loadReply k w b).keyType = s.keyType := rfl
@[simp] theorem State.loadReply_countIn (k : Option RequestKind) (w : Result) (b : List Byte) (st : RecState) :
    (s.loadReply k w b).countIn st = s.countIn st := rfl

@[simp] theorem State.completeReply_now :
    s.completeReply.now = s.now := rfl
@[simp] theorem State.completeReply_link (i : LinkNo) :
    s.completeReply.link i = s.link i := rfl
@[simp] theorem State.completeReply_lineCount :
    s.completeReply.lineCount = s.lineCount := rfl
@[simp] theorem State.completeReply_record (i : Nat) :
    s.completeReply.record? i = s.record? i := rfl
@[simp] theorem State.completeReply_keyType :
    s.completeReply.keyType = s.keyType := rfl
@[simp] theorem State.completeReply_countIn (st : RecState) :
    s.completeReply.countIn st = s.countIn st := rfl

@[simp] theorem State.emptyLead_now :
    s.emptyLead.now = s.now := rfl
@[simp] theorem State.emptyLead_link (i : LinkNo) :
    s.emptyLead.link i = s.link i := rfl
@[simp] theorem State.emptyLead_lineCount :
    s.emptyLead.lineCount = s.lineCount := rfl
@[simp] theorem State.emptyLead_record (i : Nat) :
    s.emptyLead.record? i = s.record? i := rfl
@[simp] theorem State.emptyLead_keyType :
    s.emptyLead.keyType = s.keyType := rfl
@[simp] theorem State.emptyLead_countIn (st : RecState) :
    s.emptyLead.countIn st = s.countIn st := rfl
@[simp] theorem State.emptyLead_attn :
    s.emptyLead.attn = s.attn := rfl

@[simp] theorem State.emptyChanged_now :
    s.emptyChanged.now = s.now := rfl
@[simp] theorem State.emptyChanged_link (i : LinkNo) :
    s.emptyChanged.link i = s.link i := rfl
@[simp] theorem State.emptyChanged_lineCount :
    s.emptyChanged.lineCount = s.lineCount := rfl
@[simp] theorem State.emptyChanged_record (i : Nat) :
    s.emptyChanged.record? i = s.record? i := rfl
@[simp] theorem State.emptyChanged_keyType :
    s.emptyChanged.keyType = s.keyType := rfl
@[simp] theorem State.emptyChanged_countIn (st : RecState) :
    s.emptyChanged.countIn st = s.countIn st := rfl

@[simp] theorem State.dropCauses_now :
    s.dropCauses.now = s.now := rfl
@[simp] theorem State.dropCauses_link (i : LinkNo) :
    s.dropCauses.link i = s.link i := rfl
@[simp] theorem State.dropCauses_lineCount :
    s.dropCauses.lineCount = s.lineCount := rfl
@[simp] theorem State.dropCauses_record (i : Nat) :
    s.dropCauses.record? i = s.record? i := rfl
@[simp] theorem State.dropCauses_keyType :
    s.dropCauses.keyType = s.keyType := rfl
@[simp] theorem State.dropCauses_countIn (st : RecState) :
    s.dropCauses.countIn st = s.countIn st := rfl

@[simp] theorem State.endModeration_now :
    s.endModeration.now = s.now := rfl
@[simp] theorem State.endModeration_link (i : LinkNo) :
    s.endModeration.link i = s.link i := rfl
@[simp] theorem State.endModeration_lineCount :
    s.endModeration.lineCount = s.lineCount := rfl
@[simp] theorem State.endModeration_record (i : Nat) :
    s.endModeration.record? i = s.record? i := rfl
@[simp] theorem State.endModeration_keyType :
    s.endModeration.keyType = s.keyType := rfl
@[simp] theorem State.endModeration_countIn (st : RecState) :
    s.endModeration.countIn st = s.countIn st := rfl

@[simp] theorem State.setPassings_now (l : LinkNo) (m : KeyMap Entry) :
    (s.setPassings l m).now = s.now := rfl
@[simp] theorem State.setPassings_record (l : LinkNo) (m : KeyMap Entry) (i : Nat) :
    (s.setPassings l m).record? i = s.record? i := rfl
@[simp] theorem State.setPassings_keyType (l : LinkNo) (m : KeyMap Entry) :
    (s.setPassings l m).keyType = s.keyType := rfl
@[simp] theorem State.setPassings_countIn (l : LinkNo) (m : KeyMap Entry) (st : RecState) :
    (s.setPassings l m).countIn st = s.countIn st := rfl
@[simp] theorem State.setPassings_attn (l : LinkNo) (m : KeyMap Entry) :
    (s.setPassings l m).attn = s.attn := rfl

@[simp] theorem State.setSectorMin_now (a : SetSectorArgs) :
    (s.setSectorMin a).now = s.now := rfl
@[simp] theorem State.setSectorMin_link (a : SetSectorArgs) (i : LinkNo) :
    (s.setSectorMin a).link i = s.link i := rfl
@[simp] theorem State.setSectorMin_lineCount (a : SetSectorArgs) :
    (s.setSectorMin a).lineCount = s.lineCount := rfl
@[simp] theorem State.setSectorMin_record (a : SetSectorArgs) (i : Nat) :
    (s.setSectorMin a).record? i = s.record? i := rfl
@[simp] theorem State.setSectorMin_keyType (a : SetSectorArgs) :
    (s.setSectorMin a).keyType = s.keyType := rfl
@[simp] theorem State.setSectorMin_countIn (a : SetSectorArgs) (st : RecState) :
    (s.setSectorMin a).countIn st = s.countIn st := rfl
@[simp] theorem State.setSectorMin_attn (a : SetSectorArgs) :
    (s.setSectorMin a).attn = s.attn := rfl

@[simp] theorem State.setPit_now (a : PitSettings) :
    (s.setPit a).now = s.now := rfl
@[simp] theorem State.setPit_link (a : PitSettings) (i : LinkNo) :
    (s.setPit a).link i = s.link i := rfl
@[simp] theorem State.setPit_lineCount (a : PitSettings) :
    (s.setPit a).lineCount = s.lineCount := rfl
@[simp] theorem State.setPit_record (a : PitSettings) (i : Nat) :
    (s.setPit a).record? i = s.record? i := rfl
@[simp] theorem State.setPit_keyType (a : PitSettings) :
    (s.setPit a).keyType = s.keyType := rfl
@[simp] theorem State.setPit_countIn (a : PitSettings) (st : RecState) :
    (s.setPit a).countIn st = s.countIn st := rfl
@[simp] theorem State.setPit_attn (a : PitSettings) :
    (s.setPit a).attn = s.attn := rfl

end Sys2Proof.Machine
end

