-- ==== Sys2Proof/Laws/Tables.lean ====
section
/-! SUPPORT. Keyed maps, the changed-slot set and masks: what a read gives after a write, and that every operation
keeps the canonical form. -/

namespace Sys2Proof.Machine

/-! ## Keyed maps: reads after writes -/

section Maps

variable {α : Type}

@[simp] theorem KeyMap.find_nil (k : Nat) : KeyMap.find ([] : KeyMap α) k = none := rfl

@[simp] theorem KeyMap.find_put_self (m : KeyMap α) (k : Nat) (a : α) : (m.put k a).find k = some a := by
  induction m with
  | nil => simp [KeyMap.put, KeyMap.find]
  | cons p rest ih =>
    obtain ⟨j, b⟩ := p
    simp only [KeyMap.put]
    split
    · simp [KeyMap.find]
    · split
      · simp [KeyMap.find]
      · rename_i h1 h2
        simp [KeyMap.find, Ne.symm h2, ih]

theorem KeyMap.find_put_ne (m : KeyMap α) {k j : Nat} (a : α) (h : j ≠ k) : (m.put k a).find j = m.find j := by
  induction m with
  | nil => simp [KeyMap.put, KeyMap.find, Ne.symm h]
  | cons p rest ih =>
    obtain ⟨i, b⟩ := p
    simp only [KeyMap.put]
    split
    · simp [KeyMap.find, Ne.symm h]
    · split
      · rename_i h2
        subst h2
        simp [KeyMap.find, Ne.symm h]
      · simp [KeyMap.find, ih]

theorem KeyMap.find_remove_ne (m : KeyMap α) {k j : Nat} (h : j ≠ k) : (m.remove k).find j = m.find j := by
  induction m with
  | nil => rfl
  | cons p rest ih =>
    obtain ⟨i, b⟩ := p
    simp only [KeyMap.remove]
    split
    · rename_i h2
      subst h2
      simp [KeyMap.find, Ne.symm h]
    · simp [KeyMap.find, ih]

@[simp] theorem KeyMap.find_mapVals (f : Nat → α → α) (m : KeyMap α) (k : Nat) :
    (m.mapVals f).find k = (m.find k).map (f k) := by
  induction m with
  | nil => rfl
  | cons p rest ih =>
    obtain ⟨i, b⟩ := p
    simp only [KeyMap.mapVals, List.map_cons, KeyMap.find] at *
    split
    · rename_i h
      subst h
      rfl
    · exact ih

theorem KeyMap.find_mem {m : KeyMap α} {k : Nat} {a : α} (h : m.find k = some a) : (k, a) ∈ m := by
  induction m with
  | nil => simp [KeyMap.find] at h
  | cons p rest ih =>
    obtain ⟨i, b⟩ := p
    simp only [KeyMap.find] at h
    split at h
    · rename_i hi
      subst hi
      simp_all
    · exact List.mem_cons_of_mem _ (ih h)

theorem KeyMap.find_none_iff {m : KeyMap α} {k : Nat} : m.find k = none ↔ k ∉ m.map Prod.fst := by
  induction m with
  | nil => simp [KeyMap.find]
  | cons p rest ih =>
    obtain ⟨i, b⟩ := p
    simp only [KeyMap.find]
    split
    · rename_i hi
      simp [hi]
    · rename_i hi
      simp only [ih, List.map_cons, List.mem_cons, not_or]
      exact ⟨fun h => ⟨Ne.symm hi, h⟩, fun h => h.2⟩

theorem KeyMap.find_of_mem {m : KeyMap α} {k : Nat} {a : α} (hw : m.wf) (h : (k, a) ∈ m) : m.find k = some a := by
  induction m with
  | nil => simp at h
  | cons p rest ih =>
    obtain ⟨i, b⟩ := p
    simp only [KeyMap.wf, List.map_cons, List.pairwise_cons] at hw
    rcases List.mem_cons.1 h with h | h
    · cases h
      simp [KeyMap.find]
    · have hi : i < k := hw.1 k (List.mem_map.2 ⟨(k, a), h, rfl⟩)
      simp [KeyMap.find, Nat.ne_of_lt hi, ih hw.2 h]

theorem KeyMap.mem_iff {m : KeyMap α} (hw : m.wf) {k : Nat} {a : α} : (k, a) ∈ m ↔ m.find k = some a :=
  ⟨KeyMap.find_of_mem hw, KeyMap.find_mem⟩

/-! ## Keyed maps: the canonical form is kept -/

@[simp] theorem KeyMap.wf_nil : KeyMap.wf ([] : KeyMap α) := List.Pairwise.nil

theorem KeyMap.mem_put_keys {m : KeyMap α} {k : Nat} {a : α} {j : Nat} (h : j ∈ (m.put k a).map Prod.fst) :
    j = k ∨ j ∈ m.map Prod.fst := by
  by_cases hj : j = k
  · exact .inl hj
  · right
    by_contra hn
    rw [← KeyMap.find_none_iff, ← KeyMap.find_put_ne m a hj, KeyMap.find_none_iff] at hn
    exact hn h

theorem KeyMap.wf_put {m : KeyMap α} (hw : m.wf) (k : Nat) (a : α) : (m.put k a).wf := by
  induction m with
  | nil => simp [KeyMap.put, KeyMap.wf]
  | cons p rest ih =>
    obtain ⟨i, b⟩ := p
    have hw' := hw
    simp only [KeyMap.wf, List.map_cons, List.pairwise_cons] at hw
    simp only [KeyMap.put]
    split
    · rename_i h
      simp only [KeyMap.wf, List.map_cons, List.pairwise_cons, List.mem_cons]
      refine ⟨?_, hw⟩
      rintro j (rfl | hj)
      · exact h
      · exact h.trans (hw.1 j hj)
    · split
      · rename_i h
        subst h
        exact hw'
      · rename_i h1 h2
        simp only [KeyMap.wf, List.map_cons, List.pairwise_cons]
        refine ⟨?_, ih hw.2⟩
        intro j hj
        rcases KeyMap.mem_put_keys hj with rfl | hj
        · omega
        · exact hw.1 j hj

theorem KeyMap.remove_sublist (m : KeyMap α) (k : Nat) : (m.remove k).Sublist m := by
  induction m with
  | nil => exact List.Sublist.refl _
  | cons p rest ih =>
    obtain ⟨i, b⟩ := p
    simp only [KeyMap.remove]
    split
    · exact List.sublist_cons_self _ _
    · exact ih.cons_cons _

theorem KeyMap.wf_remove {m : KeyMap α} (hw : m.wf) (k : Nat) : (m.remove k).wf :=
  List.Pairwise.sublist ((KeyMap.remove_sublist m k).map _) hw

theorem KeyMap.find_remove_self {m : KeyMap α} (hw : m.wf) (k : Nat) : (m.remove k).find k = none := by
  induction m with
  | nil => rfl
  | cons p rest ih =>
    obtain ⟨i, b⟩ := p
    simp only [KeyMap.wf, List.map_cons, List.pairwise_cons] at hw
    simp only [KeyMap.remove]
    split
    · rename_i h
      subst h
      rw [KeyMap.find_none_iff]
      intro hk
      exact lt_irrefl _ (hw.1 _ hk)
    · rename_i h
      simp [KeyMap.find, h, ih hw.2]

@[simp] theorem KeyMap.mapVals_keys (f : Nat → α → α) (m : KeyMap α) :
    (m.mapVals f).map Prod.fst = m.map Prod.fst := by
  simp [KeyMap.mapVals, List.map_map, Function.comp_def]

theorem KeyMap.wf_mapVals {m : KeyMap α} (hw : m.wf) (f : Nat → α → α) : (m.mapVals f).wf := by
  simpa [KeyMap.wf] using hw

theorem KeyMap.mapVals_id (f : Nat → α → α) (m : KeyMap α) (h : ∀ p ∈ m, f p.1 p.2 = p.2) : m.mapVals f = m := by
  induction m with
  | nil => rfl
  | cons p rest ih =>
    obtain ⟨i, b⟩ := p
    simp only [KeyMap.mapVals, List.map_cons] at *
    rw [ih fun q hq => h q (List.mem_cons_of_mem _ hq)]
    have := h (i, b) List.mem_cons_self
    simp_all

theorem KeyMap.length_put (m : KeyMap α) (k : Nat) (a : α) : (m.put k a).length ≤ m.length + 1 := by
  induction m with
  | nil => simp [KeyMap.put]
  | cons p rest ih =>
    obtain ⟨i, b⟩ := p
    simp only [KeyMap.put]
    split
    · simp
    · split
      · simp
      · simp only [List.length_cons]
        omega

theorem KeyMap.length_put_present {m : KeyMap α} (hw : m.wf) {k : Nat} {a b : α} (h : m.find k = some b) :
    (m.put k a).length = m.length := by
  induction m with
  | nil => simp [KeyMap.find] at h
  | cons p rest ih =>
    obtain ⟨i, c⟩ := p
    simp only [KeyMap.wf, List.map_cons, List.pairwise_cons] at hw
    simp only [KeyMap.find] at h
    simp only [KeyMap.put]
    split at h
    · rename_i hi
      subst hi
      simp
    · rename_i hi
      have hk : i < k := hw.1 k (List.mem_map.2 ⟨(k, b), KeyMap.find_mem h, rfl⟩)
      rw [if_neg (by omega), if_neg (by omega)]
      simp [ih hw.2 h]

end Maps

/-! ## The changed-slot set -/

@[simp] theorem mem_joinSlot (n m : Nat) (xs : List Nat) : m ∈ joinSlot n xs ↔ m = n ∨ m ∈ xs := by
  induction xs with
  | nil => simp [joinSlot]
  | cons x rest ih =>
    simp only [joinSlot]
    split
    · simp
    · split
      · rename_i h
        subst h
        simp
      · simp only [List.mem_cons, ih]
        tauto

theorem joinSlot_sorted (n : Nat) {xs : List Nat} (h : xs.Pairwise (· < ·)) : (joinSlot n xs).Pairwise (· < ·) := by
  induction xs with
  | nil => simp [joinSlot]
  | cons x rest ih =>
    have h' := h
    simp only [List.pairwise_cons] at h
    simp only [joinSlot]
    split
    · rename_i hn
      simp only [List.pairwise_cons, List.mem_cons]
      refine ⟨?_, h⟩
      rintro m (rfl | hm)
      · exact hn
      · exact hn.trans (h.1 m hm)
    · split
      · exact h'
      · simp only [List.pairwise_cons, mem_joinSlot]
        refine ⟨?_, ih h.2⟩
        rintro m (rfl | hm)
        · omega
        · exact h.1 m hm

theorem joinSlot_ne_nil (n : Nat) (xs : List Nat) : joinSlot n xs ≠ [] := by
  intro h
  have : n ∈ joinSlot n xs := by simp
  simp [h] at this

/-! ## Masks -/

theorem hasBit_addBit {n : Nat} (m : Mask n) (i j : Nat) :
    hasBit (addBit m i) j = (hasBit m j || (decide (i < n) && decide (i = j))) := by
  simp only [hasBit, addBit, oneOf, BitVec.getLsbD_or, BitVec.getLsbD_twoPow]

theorem hasBit_dropBit {n : Nat} (m : Mask n) (i j : Nat) :
    hasBit (dropBit m i) j = (hasBit m j && !decide (i = j)) := by
  simp only [hasBit, dropBit, oneOf, BitVec.getLsbD_and, BitVec.getLsbD_not, BitVec.getLsbD_twoPow]
  by_cases hj : j < n
  · by_cases hi : i = j
    · subst hi
      simp [hj]
    · simp [hj, hi]
  · simp [BitVec.getLsbD_of_ge m j (by omega)]

theorem cause_code_lt (c : Cause) : codeIn Cause.all c < 6 := by cases c <;> decide

theorem cause_code_inj (c d : Cause) : codeIn Cause.all c = codeIn Cause.all d ↔ c = d := by
  cases c <;> cases d <;> decide

theorem hasCause_addCause (m : Mask 6) (c d : Cause) :
    hasCause (addCause m c) d = (hasCause m d || decide (c = d)) := by
  simp only [hasCause, addCause, hasBit_addBit, cause_code_lt, cause_code_inj, decide_true, Bool.true_and]

theorem hasCause_dropCause (m : Mask 6) (c d : Cause) :
    hasCause (dropCause m c) d = (hasCause m d && !decide (c = d)) := by
  simp only [hasCause, dropCause, hasBit_dropBit, cause_code_inj]

theorem flag_code_lt (c : LoopFlag) : codeIn LoopFlag.all c < 10 := by cases c <;> decide

theorem flag_code_inj (c d : LoopFlag) : codeIn LoopFlag.all c = codeIn LoopFlag.all d ↔ c = d := by
  cases c <;> cases d <;> decide

theorem hasFlag_addFlag (m : Mask 10) (c d : LoopFlag) :
    hasFlag (addFlag m c) d = (hasFlag m d || decide (c = d)) := by
  simp only [hasFlag, addFlag, hasBit_addBit, flag_code_lt, flag_code_inj, decide_true, Bool.true_and]

theorem notice_code_lt (c : Notice) : codeIn Notice.all c < 7 := by cases c <;> decide

theorem notice_code_inj (c d : Notice) : codeIn Notice.all c = codeIn Notice.all d ↔ c = d := by
  cases c <;> cases d <;> decide

theorem hasNotice_addNotice (m : Mask 7) (c d : Notice) :
    hasNotice (addNotice m c) d = (hasNotice m d || decide (c = d)) := by
  simp only [hasNotice, addNotice, hasBit_addBit, notice_code_lt, notice_code_inj, decide_true, Bool.true_and]

theorem lap_code_lt (c : LapFlag) : codeIn LapFlag.all c < 4 := by cases c <;> decide

theorem lap_code_inj (c d : LapFlag) : codeIn LapFlag.all c = codeIn LapFlag.all d ↔ c = d := by
  cases c <;> cases d <;> decide

theorem hasLap_addLap (m : Mask 4) (c d : LapFlag) :
    hasLap (addLap m c) d = (hasLap m d || decide (c = d)) := by
  simp only [hasLap, addLap, hasBit_addBit, lap_code_lt, lap_code_inj, decide_true, Bool.true_and]

theorem hasLap_dropLap (m : Mask 4) (c d : LapFlag) :
    hasLap (dropLap m c) d = (hasLap m d && !decide (c = d)) := by
  simp only [hasLap, dropLap, hasBit_dropBit, lap_code_inj]

end Sys2Proof.Machine
end

