-- ==== Sys2Proof/Laws/Records.lean ====
section
/-! SUPPORT. What the operations over records can do: a record written, all records changed in place, the order list
brought to the keys, a passing rejected; and the relation `RaceStep` that every scoring operation keeps to. -/

namespace Sys2Proof.Machine

/-! ## Writing records -/

theorem State.putRecord_eq (s : State) (n : Nat) (r : Record) :
    s.putRecord n r = s ∧ s.record? n = some r ∨
    s.putRecord n r = (s.setRecords (s.table.records.put n r)).markChanged n := by
  unfold State.putRecord
  split
  · exact .inl ⟨rfl, ‹_›⟩
  · exact .inr rfl

@[simp] theorem State.record_setRecords (s : State) (m : KeyMap Record) (n : Nat) :
    (s.setRecords m).record? n = m.find n := rfl

@[simp] theorem State.putRecord_record_self (s : State) (n : Nat) (r : Record) :
    (s.putRecord n r).record? n = some r := by
  rcases s.putRecord_eq n r with ⟨h, hr⟩ | h
  · rw [h, hr]
  · rw [h]
    simp

theorem State.putRecord_record_ne (s : State) {n m : Nat} (r : Record) (h : m ≠ n) :
    (s.putRecord n r).record? m = s.record? m := by
  rcases s.putRecord_eq n r with ⟨h', -⟩ | h'
  · rw [h']
  · rw [h']
    exact KeyMap.find_put_ne s.table.records r h

theorem State.updRecord_some {s : State} {n : Nat} {r : Record} (h : s.record? n = some r) (f : Record → Record) :
    s.updRecord n f = s.putRecord n (f r) := by
  simp [State.updRecord, h]

theorem State.updRecord_none {s : State} {n : Nat} (h : s.record? n = none) (f : Record → Record) :
    s.updRecord n f = s := by
  simp [State.updRecord, h]

/-! ## All records changed in place -/

theorem State.foldl_markChanged (ns : List (Nat × Record)) (s : State) :
    ns.foldl (fun t p => t.markChanged p.1) s =
      { s with report := { s.report with changed := ns.foldl (fun c p => joinSlot p.1 c) s.report.changed } } := by
  induction ns generalizing s with
  | nil => rfl
  | cons p rest ih => exact ih _

/-- The slots whose records a function changes. -/
def touchedSlots (f : Nat → Record → Record) (m : KeyMap Record) : List (Nat × Record) :=
  m.filter fun p => decide (f p.1 p.2 ≠ p.2)

theorem State.updAll_eq (s : State) (f : Nat → Record → Record) :
    s.updAll f =
      { s with
        table := { s.table with records := s.table.records.mapVals f },
        report := { s.report with
          changed := (touchedSlots f s.table.records).foldl (fun c p => joinSlot p.1 c) s.report.changed } } :=
  State.foldl_markChanged _ _

theorem mem_foldl_joinSlot (ns : List (Nat × Record)) (c : List Nat) (n : Nat) :
    n ∈ ns.foldl (fun c p => joinSlot p.1 c) c ↔ n ∈ c ∨ n ∈ ns.map Prod.fst := by
  induction ns generalizing c with
  | nil => simp
  | cons p rest ih =>
    rw [List.foldl_cons, ih]
    simp only [mem_joinSlot, List.map_cons, List.mem_cons]
    tauto

theorem foldl_joinSlot_sorted (ns : List (Nat × Record)) {c : List Nat} (h : c.Pairwise (· < ·)) :
    (ns.foldl (fun c p => joinSlot p.1 c) c).Pairwise (· < ·) := by
  induction ns generalizing c with
  | nil => exact h
  | cons p rest ih => exact ih (joinSlot_sorted _ h)

@[simp] theorem State.updAll_record (s : State) (f : Nat → Record → Record) (n : Nat) :
    (s.updAll f).record? n = (s.record? n).map (f n) := by
  rw [State.updAll_eq]
  exact KeyMap.find_mapVals f s.table.records n

theorem State.updAll_eq_self (s : State) (f : Nat → Record → Record)
    (h : ∀ p ∈ s.table.records, f p.1 p.2 = p.2) : s.updAll f = s := by
  rw [State.updAll_eq, KeyMap.mapVals_id f _ h]
  have : touchedSlots f s.table.records = [] := by
    rw [touchedSlots, List.filter_eq_nil_iff]
    intro p hp
    simp [h p hp]
  rw [this]
  rfl

/-! ## The order list -/

/-- The keys do not read what taking a place writes. -/
theorem Record.takePlace_state (r : Record) (p : Option Nat) : (r.takePlace p).state = r.state := rfl

theorem Record.takePlace_orderKey (r : Record) (p : Option Nat) (ty : SessionType) (n : Nat) :
    (r.takePlace p).orderKey ty n = r.orderKey ty n := rfl

theorem orderEntries_takePlace (ty : SessionType) (m : KeyMap Record) (g : Nat → Option Nat) :
    orderEntries ty (m.mapVals fun n r => r.takePlace (g n)) = orderEntries ty m := by
  simp only [orderEntries, KeyMap.mapVals]
  induction m with
  | nil => rfl
  | cons p rest ih =>
    simp only [List.map_cons, List.filter_cons, Record.takePlace_state]
    by_cases hp : stateInOrder p.2.state = true
    · simp only [hp, if_true, List.map_cons, Record.takePlace_orderKey, ih]
    · simp only [hp]
      exact ih

theorem orderOf_takePlace (ty : SessionType) (m : KeyMap Record) (g : Nat → Option Nat) :
    orderOf ty (m.mapVals fun n r => r.takePlace (g n)) = orderOf ty m := by
  rw [orderOf, orderEntries_takePlace, orderOf]

/-- The place a record takes when the list is brought to the keys. -/
def State.placed (s : State) (n : Nat) (r : Record) : Record :=
  r.takePlace (placeOf (orderOf s.keyType s.table.records) n)

/-- Everything `reorder` can do: every record takes its place, the list is the one the keys fix, the changed slots
join the set, and ORDER may be raised. -/
theorem State.reorder_eq (s : State) :
    ∃ causes, (causes = s.report.causes ∨ causes = addCause s.report.causes .order) ∧
      s.reorder =
        { s with
          table := { s.table with records := s.table.records.mapVals s.placed },
          order := { s.order with list := orderOf s.keyType s.table.records },
          report := { s.report with
            changed := (touchedSlots s.placed s.table.records).foldl (fun c p => joinSlot p.1 c) s.report.changed,
            causes := causes } } := by
  unfold State.reorder
  simp only [State.updAll_eq]
  split
  · exact ⟨_, .inr rfl, rfl⟩
  · exact ⟨_, .inl rfl, rfl⟩

theorem State.reorder_record (s : State) (n : Nat) : s.reorder.record? n = (s.record? n).map (s.placed n) := by
  obtain ⟨c, -, h⟩ := s.reorder_eq
  rw [h]
  exact KeyMap.find_mapVals s.placed s.table.records n

@[simp] theorem State.reorder_session (s : State) : s.reorder.session = s.session := by
  obtain ⟨c, -, h⟩ := s.reorder_eq
  rw [h]

@[simp] theorem State.reorder_keyType (s : State) : s.reorder.keyType = s.keyType := by
  simp [State.keyType]

theorem State.reorder_list (s : State) : s.reorder.order.list = orderOf s.keyType s.table.records := by
  obtain ⟨c, -, h⟩ := s.reorder_eq
  rw [h]

/-- After `reorder` the list, the positions and the gaps agree (R116, R125). -/
theorem State.reorder_agrees (s : State) : s.reorder.orderAgrees := by
  obtain ⟨c, -, h⟩ := s.reorder_eq
  have hk : s.reorder.keyType = s.keyType := s.reorder_keyType
  refine ⟨?_, ?_⟩
  · rw [hk, h]
    exact (orderOf_takePlace s.keyType s.table.records _).symm
  · rw [h]
    intro p hp
    obtain ⟨q, hq, rfl⟩ := List.mem_map.1 hp
    refine ⟨rfl, ?_⟩
    intro hn
    simp only [State.placed, Record.takePlace] at hn ⊢
    simp [hn]

/-- On a state that agrees, `reorder` changes nothing. -/
theorem State.reorder_of_agrees {s : State} (h : s.orderAgrees) : s.reorder = s := by
  have hp : ∀ p ∈ s.table.records, p.2.takePlace (placeOf (orderOf s.keyType s.table.records) p.1) = p.2 := by
    intro p hp
    obtain ⟨h1, h2⟩ := h.2 p hp
    rw [← h.1, ← h1]
    obtain ⟨n, r⟩ := p
    cases r
    simp only [Record.takePlace] at *
    simp only [if_true, Record.mk.injEq, true_and, and_true]
    split <;> simp_all
  have hm : (s.table.records.any fun p =>
      decide (p.2.position ≠ placeOf (orderOf s.keyType s.table.records) p.1)) = false := by
    rw [List.any_eq_false]
    intro p hpm
    rw [(h.2 p hpm).1, h.1]
    simp
  unfold State.reorder
  simp only [hm, Bool.false_or]
  rw [State.updAll_eq_self s _ hp]
  simp [← h.1]

/-! ## The scoring relation -/

/-- Who a record is: code, car number, class, grid position, session number (4.1, Identity region). -/
def Record.identity (r : Record) : Nat × Nat × Nat × Option Nat × Nat := (r.code, r.car, r.cls, r.grid, r.session)

/-- What an operation that works on records alone keeps and notes: every other block is as it was, no slot is freed or
taken, no identity changes, every changed record is in the changed-slot set (R74), causes only join. -/
structure RaceStep (s t : State) : Prop where
  time : t.time = s.time
  links : t.links = s.links
  circuit : t.circuit = s.circuit
  index : t.table.index = s.table.index
  unknown : t.table.unknown = s.table.unknown
  unknownFull : t.table.unknownFull = s.table.unknownFull
  slotLimit : t.table.slotLimit = s.table.slotLimit
  freeDraws : t.freeDraws = s.freeDraws
  pending : t.pending = s.pending
  portPhase : t.report.portPhase = s.report.portPhase
  buffer : t.report.buffer = s.report.buffer
  reply : t.report.reply = s.report.reply
  readFlag : t.report.readFlag = s.report.readFlag
  sdo : t.report.sdo = s.report.sdo
  latch : t.report.latch = s.report.latch
  moderation : t.report.moderation = s.report.moderation
  moderationExpiry : t.report.moderationExpiry = s.report.moderationExpiry
  setup : t.session.setup = s.session.setup
  number : t.session.number = s.session.number
  ident : ∀ n, (t.record? n).map Record.identity = (s.record? n).map Record.identity
  keys : s.table.records.wf → t.table.records.map Prod.fst = s.table.records.map Prod.fst
  noted : ∀ n, t.record? n ≠ s.record? n → n ∈ t.report.changed
  joined : ∀ n ∈ s.report.changed, n ∈ t.report.changed
  sorted : s.report.changed.Pairwise (· < ·) → t.report.changed.Pairwise (· < ·)
  caused : ∀ c, hasCause s.report.causes c = true → hasCause t.report.causes c = true
  onlyOrder : ∀ c, c ≠ .order → hasCause t.report.causes c = hasCause s.report.causes c

theorem RaceStep.refl (s : State) : RaceStep s s := by
  constructor <;> simp

theorem RaceStep.trans {s t u : State} (h : RaceStep s t) (k : RaceStep t u) : RaceStep s u := by
  have hw : s.table.records.wf → t.table.records.wf := fun w => by
    rw [KeyMap.wf, h.keys w]
    exact w
  constructor
  case noted =>
    intro n hn
    by_cases ht : t.record? n = s.record? n
    · exact k.noted n (by rwa [ht])
    · exact k.joined n (h.noted n ht)
  case keys => exact fun w => (k.keys (hw w)).trans (h.keys w)
  case ident => exact fun n => (k.ident n).trans (h.ident n)
  case joined => exact fun n hn => k.joined n (h.joined n hn)
  case sorted => exact fun w => k.sorted (h.sorted w)
  case caused => exact fun c hc => k.caused c (h.caused c hc)
  case onlyOrder => exact fun c hc => (k.onlyOrder c hc).trans (h.onlyOrder c hc)
  all_goals first
    | exact k.time.trans h.time | exact k.links.trans h.links | exact k.circuit.trans h.circuit
    | exact k.index.trans h.index | exact k.unknown.trans h.unknown | exact k.unknownFull.trans h.unknownFull
    | exact k.slotLimit.trans h.slotLimit | exact k.freeDraws.trans h.freeDraws
    | exact k.pending.trans h.pending | exact k.portPhase.trans h.portPhase | exact k.buffer.trans h.buffer
    | exact k.reply.trans h.reply | exact k.readFlag.trans h.readFlag | exact k.sdo.trans h.sdo
    | exact k.latch.trans h.latch | exact k.moderation.trans h.moderation
    | exact k.moderationExpiry.trans h.moderationExpiry | exact k.setup.trans h.setup
    | exact k.number.trans h.number

theorem KeyMap.keys_put_present {α : Type} {m : KeyMap α} (hw : m.wf) {k : Nat} {a b : α} (h : m.find k = some b) :
    (m.put k a).map Prod.fst = m.map Prod.fst := by
  induction m with
  | nil => simp [KeyMap.find] at h
  | cons p rest ih =>
    obtain ⟨i, c⟩ := p
    simp only [KeyMap.wf, List.map_cons, List.pairwise_cons] at hw
    simp only [KeyMap.find] at h
    simp only [KeyMap.put]
    split at h
    · rename_i hi
      subst hi
      simp
    · rename_i hi
      have hk : i < k := hw.1 k (List.mem_map.2 ⟨(k, b), KeyMap.find_mem h, rfl⟩)
      rw [if_neg (by omega), if_neg (by omega)]
      simp [ih hw.2 h]

theorem RaceStep.putRecord {s : State} {n : Nat} {r r' : Record} (h : s.record? n = some r)
    (hi : r'.identity = r.identity) : RaceStep s (s.putRecord n r') := by
  rcases s.putRecord_eq n r' with ⟨h', -⟩ | h'
  · rw [h']
    exact RaceStep.refl s
  · have hother : ∀ m, m ≠ n → (s.putRecord n r').record? m = s.record? m := fun m hm => s.putRecord_record_ne r' hm
    have hself := s.putRecord_record_self n r'
    rw [h'] at hother hself ⊢
    constructor
    case ident =>
      intro m
      by_cases hm : m = n
      · subst hm
        rw [hself, h]
        simp [hi]
      · rw [hother m hm]
    case noted =>
      intro m hm
      by_cases hmn : m = n
      · subst hmn
        simp
      · exact absurd (hother m hmn) hm
    case keys => exact fun w => KeyMap.keys_put_present w h
    case joined => exact fun m hm => by simp [hm]
    case sorted => exact fun w => joinSlot_sorted n w
    case caused => exact fun c hc => hc
    case onlyOrder => exact fun c _ => rfl
    all_goals rfl

theorem RaceStep.updRecord (s : State) (n : Nat) (f : Record → Record) (hi : ∀ r, (f r).identity = r.identity) :
    RaceStep s (s.updRecord n f) := by
  unfold State.updRecord
  split
  · exact RaceStep.putRecord ‹_› (hi _)
  · exact RaceStep.refl s

theorem RaceStep.updAll (s : State) (f : Nat → Record → Record) (hi : ∀ n r, (f n r).identity = r.identity) :
    RaceStep s (s.updAll f) := by
  have hrec := State.updAll_record s f
  rw [State.updAll_eq] at *
  constructor
  case ident =>
    intro n
    rw [hrec n]
    cases s.record? n <;> simp [hi]
  case noted =>
    intro n hn
    rw [hrec n] at hn
    rw [mem_foldl_joinSlot]
    right
    cases hr : s.record? n with
    | none => simp [hr] at hn
    | some r =>
      refine List.mem_map.2 ⟨(n, r), ?_, rfl⟩
      rw [touchedSlots, List.mem_filter]
      refine ⟨KeyMap.find_mem hr, ?_⟩
      simp only [hr, Option.map_some, ne_eq, Option.some.injEq] at hn
      simpa using hn
  case keys => exact fun _ => KeyMap.mapVals_keys f _
  case joined => exact fun n hn => (mem_foldl_joinSlot _ _ n).2 (.inl hn)
  case sorted => exact fun w => foldl_joinSlot_sorted _ w
  case caused => exact fun c hc => hc
  case onlyOrder => exact fun c _ => rfl
  all_goals rfl

/-- An order block written, and nothing else. -/
theorem RaceStep.setOrder (s : State) (o : OrderBlock) : RaceStep s { s with order := o } := by
  constructor <;> intros <;> first | rfl | assumption | simp_all [State.record?]

/-- A session whose setup and number are as they were. -/
theorem RaceStep.setSession (s : State) (c : Session) (h1 : c.setup = s.session.setup)
    (h2 : c.number = s.session.number) : RaceStep s (s.setSession c) := by
  constructor <;> intros <;> first | rfl | assumption | simp_all [State.record?]

theorem RaceStep.raiseOrder (s : State) : RaceStep s (s.raise .order) := by
  constructor
  case caused =>
    intro c hc
    simp [hasCause_addCause, hc]
  case onlyOrder =>
    intro c hc
    simp [hasCause_addCause, Ne.symm hc]
  case noted => intro n hn; exact absurd rfl hn
  case joined => exact fun n hn => hn
  case sorted => exact fun w => w
  all_goals intros; rfl

theorem RaceStep.reorder (s : State) : RaceStep s s.reorder := by
  unfold State.reorder
  have h1 : RaceStep s (s.updAll fun n r => r.takePlace (placeOf (orderOf s.keyType s.table.records) n)) :=
    RaceStep.updAll s _ fun _ _ => rfl
  have h2 := h1.trans (RaceStep.setOrder _ { (s.updAll fun n r =>
    r.takePlace (placeOf (orderOf s.keyType s.table.records) n)).order with
      list := orderOf s.keyType s.table.records })
  dsimp only
  split
  · exact h2.trans (RaceStep.raiseOrder _)
  · exact h2

end Sys2Proof.Machine
end

