-- ==== Sys2Proof/Laws/Race.lean ====
section
/-! SUPPORT. Every scoring operation is a `RaceStep`: line scoring, the pit monitor, the chequer, the close and the
dispatch of a passing keep every other block, every identity and the reporting unit's port, and note every record they
change. -/

namespace Sys2Proof.Machine

/-! ## The session controller's part -/

theorem RaceStep.closeSession (s : State) : RaceStep s s.closeSession := RaceStep.setSession s _ rfl rfl

theorem RaceStep.fieldIn (s : State) : RaceStep s s.fieldIn := by
  unfold State.fieldIn
  split
  · exact RaceStep.closeSession s
  · exact RaceStep.refl s

theorem RaceStep.enterChequered (s : State) (c : ChequerCause) (n : Option Nat) :
    RaceStep s (s.enterChequered c n) := by
  unfold State.enterChequered
  refine RaceStep.trans ?_ (RaceStep.fieldIn _)
  exact RaceStep.setSession s _ rfl rfl

theorem RaceStep.timeLimitHappens (s : State) : RaceStep s s.timeLimitHappens := by
  unfold State.timeLimitHappens
  dsimp only
  split
  · exact (RaceStep.setSession s _ rfl rfl).trans (RaceStep.setSession _ _ rfl rfl)
  · exact (RaceStep.setSession s _ rfl rfl).trans (RaceStep.enterChequered _ _ _)

theorem RaceStep.setTimeLimit (s : State) (e : Nat) : RaceStep s (s.setTimeLimit e) := by
  unfold State.setTimeLimit
  dsimp only
  split
  · exact (RaceStep.setSession s _ rfl rfl).trans (RaceStep.timeLimitHappens _)
  · exact RaceStep.setSession s _ rfl rfl

theorem RaceStep.completion (s : State) (n : Nat) (p : Phase) : RaceStep s (s.completion n p) := by
  unfold State.completion
  split
  · split
    · split
      · exact RaceStep.enterChequered _ _ _
      · split
        · exact RaceStep.enterChequered _ _ _
        · exact RaceStep.refl s
    · exact RaceStep.refl s
  · exact RaceStep.refl s

theorem RaceStep.flagLaps (s : State) (f : LapFlag) : RaceStep s (s.flagLaps f) := by
  apply RaceStep.updAll
  intro n r
  split <;> rfl

theorem RaceStep.leftField (s : State) (st : RecState) : RaceStep s (s.leftField st) := by
  unfold State.leftField
  split
  · exact RaceStep.fieldIn s
  · exact RaceStep.refl s

/-! ## Crossings and finishing -/

theorem RaceStep.reject (s : State) (n : Nat) (l : LinkNo) (t : Nat) (w : Reason) : RaceStep s (s.reject n l t w) :=
  RaceStep.updRecord s n _ fun _ => rfl

theorem RaceStep.crossing (s : State) (n t : Nat) : RaceStep s (s.crossing n t) := by
  unfold State.crossing
  dsimp only
  split
  · exact RaceStep.reorder s
  · split
    · refine ((RaceStep.reorder s).trans (RaceStep.setOrder _ _)).trans (RaceStep.putRecord (r := ‹_›) ?_ rfl)
      assumption
    · exact RaceStep.reorder s

theorem RaceStep.finishRecord (s : State) (n : Nat) (t : Option Nat) : RaceStep s (s.finishRecord n t) := by
  unfold State.finishRecord
  refine RaceStep.trans (RaceStep.trans ?_ (RaceStep.reorder _)) (RaceStep.fieldIn _)
  exact RaceStep.updRecord s n _ fun _ => rfl

theorem RaceStep.finishIfChequered (s : State) (n : Nat) (d : Bool) (t : Option Nat) :
    RaceStep s (s.finishIfChequered n d t) := by
  unfold State.finishIfChequered
  split
  · exact RaceStep.finishRecord s n t
  · exact RaceStep.refl s

/-! ## Identity through line scoring -/

theorem Record.identity_judgeLap (r : Record) (x : LastLap) (t : Nat) : (r.judgeLap x t).identity = r.identity := by
  unfold Record.judgeLap
  split
  · split <;> rfl
  · rfl

theorem Record.identity_judgeSectors (r : Record) (x : LastLap) : (r.judgeSectors x).identity = r.identity := by
  unfold Record.judgeSectors
  split <;> rfl

theorem Record.identity_completeLap (r : Record) (d : DeltaDirection) (w : LapTime) (t : Nat) :
    (r.completeLap d w t).identity = r.identity := by
  refine (Record.identity_judgeSectors _ _).trans ((Record.identity_judgeLap _ _ _).trans ?_)
  rfl

theorem State.identity_steppedRecord (s : State) (r : Record) (q k p t : Nat) :
    (s.steppedRecord r q k p t).identity = r.identity := by
  unfold State.steppedRecord
  dsimp only
  split
  · split
    · exact Record.identity_completeLap _ _ _ _
    · exact Record.identity_completeLap _ _ _ _
  · rfl

theorem RaceStep.firstLine {s : State} {n : Nat} {r : Record} (h : s.record? n = some r) (p t : Nat) :
    RaceStep s (s.firstLine n r p t) := by
  unfold State.firstLine
  refine RaceStep.trans ?_ (RaceStep.crossing _ n t)
  exact RaceStep.putRecord h rfl

theorem RaceStep.scoreStep {s : State} {n : Nat} {r : Record} (h : s.record? n = some r) (q k p t : Nat) :
    RaceStep s (s.scoreStep n r q k p t) := by
  unfold State.scoreStep
  dsimp only
  have h1 := (RaceStep.putRecord h (s.identity_steppedRecord r q k p t)).trans (RaceStep.crossing _ n t)
  split
  · exact (h1.trans (RaceStep.completion _ _ _)).trans (RaceStep.finishIfChequered _ _ _ _)
  · exact h1.trans (RaceStep.finishIfChequered _ _ _ _)

theorem RaceStep.scoreLine (s : State) (n : Nat) (l : LinkNo) (p t : Nat) : RaceStep s (s.scoreLine n l p t) := by
  unfold State.scoreLine
  split
  · exact RaceStep.refl s
  · split
    · exact RaceStep.firstLine ‹_› p t
    · split
      · exact RaceStep.reject s n l t _
      · exact RaceStep.scoreStep ‹_› _ _ p t

/-! ## The pit monitor -/

theorem RaceStep.openStop (s : State) (n : Nat) (c : PitSettings) (e : Option Nat) (t : Nat) :
    RaceStep s (s.openStop n c e t) := by
  unfold State.openStop
  refine RaceStep.trans ?_ (RaceStep.reorder _)
  exact RaceStep.updRecord s n _ fun _ => rfl

theorem RaceStep.pitCompletion (s : State) (n : Nat) (p : Phase) (d : Bool) (t : Option Nat) :
    RaceStep s (s.pitCompletion n p d t) := by
  unfold State.pitCompletion
  split
  · exact ((RaceStep.reorder s).trans (RaceStep.completion _ _ _)).trans (RaceStep.finishIfChequered _ _ _ _)
  · exact RaceStep.refl s

theorem State.identity_settledRecord (s : State) (r : Record) (c : PitSettings) (q t : Nat) :
    (s.settledRecord r c q t).identity = r.identity := by
  unfold State.settledRecord
  dsimp only
  split
  · split
    · exact Record.identity_completeLap _ _ _ _
    · exact Record.identity_completeLap _ _ _ _
  · rfl

theorem RaceStep.pitEntry {s : State} {n : Nat} {r : Record} (h : s.record? n = some r) (c : PitSettings) (p : Phase)
    (e : Option Nat) (t : Nat) : RaceStep s (s.pitEntry n r c p e t) := by
  unfold State.pitEntry
  split
  · split
    · exact RaceStep.openStop s n c e t
    · dsimp only
      have h1 := fun q d => (RaceStep.putRecord h (s.identity_settledRecord r c q t)).trans
        (RaceStep.pitCompletion _ n p d none)
      split
      · exact (h1 _ _).trans (RaceStep.openStop _ n c e t)
      · exact h1 _ _
  · exact RaceStep.openStop s n c e t

theorem State.identity_rejoinedRecord (s : State) (r : Record) (c : PitSettings) (x : Option Nat) (t : Nat) :
    (s.rejoinedRecord r c x t).identity = r.identity := by
  unfold State.rejoinedRecord
  dsimp only
  split
  · split
    · exact Record.identity_completeLap _ _ _ _
    · exact Record.identity_completeLap _ _ _ _
  · rfl

theorem RaceStep.backOnTrack (s : State) (n : Nat) : RaceStep s (s.backOnTrack n) := by
  unfold State.backOnTrack
  refine RaceStep.trans ?_ (RaceStep.reorder _)
  exact RaceStep.updRecord s n _ fun _ => rfl

theorem RaceStep.rejoin {s : State} {n : Nat} {r r0 : Record} (h : s.record? n = some r0) (hi : r.identity = r0.identity)
    (c : PitSettings) (p : Phase) (x : Option Nat) (t : Nat) : RaceStep s (s.rejoin n r c p x t) := by
  unfold State.rejoin
  dsimp only
  have h1 := RaceStep.putRecord (r' := s.rejoinedRecord r c x t) h ((s.identity_rejoinedRecord r c x t).trans hi)
  split
  · have h2 := (h1.trans (RaceStep.reorder _)).trans (RaceStep.completion _ n p)
    generalize (s.putRecord n (s.rejoinedRecord r c x t)).reorder.completion n p = u at h2
    split
    · refine h2.trans (RaceStep.trans ?_ (RaceStep.finishRecord _ _ _))
      exact RaceStep.updRecord u n _ fun _ => rfl
    · exact h2.trans (RaceStep.backOnTrack _ _)
  · exact h1.trans (RaceStep.backOnTrack _ _)

theorem Record.identity_exitPit (r : Record) (c : PitSettings) (t : Nat) : (r.exitPit c t).identity = r.identity := by
  unfold Record.exitPit
  split <;> rfl

theorem RaceStep.pitExit (s : State) (n : Nat) (c : PitSettings) (p : Phase) (t : Nat) :
    RaceStep s (s.pitExit n c p t) := by
  unfold State.pitExit
  split
  · exact RaceStep.rejoin ‹_› (Record.identity_exitPit _ _ _) _ _ _ _
  · exact RaceStep.refl s

theorem RaceStep.missedPitIn {s : State} {n : Nat} {r : Record} (h : s.record? n = some r) (c : PitSettings) (p : Phase)
    (t : Nat) : RaceStep s (s.missedPitIn n r c p t) := by
  unfold State.missedPitIn
  dsimp only
  split
  · exact (RaceStep.pitEntry h c p none t).trans (RaceStep.pitExit _ n c p t)
  · exact RaceStep.pitEntry h c p none t

theorem RaceStep.cancelPit {s : State} {n : Nat} {r : Record} (h : s.record? n = some r) (c : PitSettings) (l : LinkNo)
    (p t : Nat) : RaceStep s (s.cancelPit n r c l p t) := by
  unfold State.cancelPit
  split
  · exact RaceStep.reject s n l t _
  · refine RaceStep.trans (RaceStep.trans ?_ (RaceStep.reorder _)) (RaceStep.scoreLine _ _ _ _ _)
    exact RaceStep.putRecord h rfl

theorem RaceStep.missedPitOut {s : State} {n : Nat} {r : Record} (h : s.record? n = some r) (c : PitSettings)
    (l : LinkNo) (ph : Phase) (p t : Nat) : RaceStep s (s.missedPitOut n r c l ph p t) := by
  unfold State.missedPitOut
  split
  · exact RaceStep.reject s n l t _
  · dsimp only
    have h1 := RaceStep.rejoin (r := r.exitUnseen) h rfl c ph none t
    split
    · exact h1.trans (RaceStep.scoreLine _ _ _ _ _)
    · exact h1

theorem RaceStep.takePitIn {s : State} {n : Nat} {r : Record} (h : s.record? n = some r) (c : PitSettings) (l : LinkNo)
    (t : Nat) : RaceStep s (s.takePitIn n r c l t) := by
  unfold State.takePitIn
  split
  · exact RaceStep.pitEntry h c _ _ t
  · split
    · exact RaceStep.reject s n l t _
    · exact RaceStep.pitEntry h c _ _ t
  · exact RaceStep.reject s n l t _
  all_goals exact RaceStep.refl s

theorem RaceStep.takePitOut {s : State} {n : Nat} {r : Record} (h : s.record? n = some r) (c : PitSettings) (l : LinkNo)
    (t : Nat) : RaceStep s (s.takePitOut n r c l t) := by
  unfold State.takePitOut
  split
  · exact RaceStep.putRecord h rfl
  · split
    · exact RaceStep.reject s n l t _
    · split
      · exact RaceStep.reject s n l t _
      · exact RaceStep.missedPitIn h c _ t
  · split
    · exact RaceStep.reject s n l t _
    · exact RaceStep.pitExit s n c _ t
  all_goals exact RaceStep.refl s

theorem RaceStep.takePitLine {s : State} {n : Nat} {r : Record} (h : s.record? n = some r) (c : PitSettings)
    (l : LinkNo) (p t : Nat) : RaceStep s (s.takePitLine n r c l p t) := by
  unfold State.takePitLine
  split
  · exact RaceStep.reject s n l t _
  · split
    · exact RaceStep.cancelPit h c l p t
    · exact RaceStep.missedPitOut h c l _ p t

/-! ## Dispatch -/

theorem RaceStep.withPit (s : State) (f : PitSettings → State) (h : ∀ c, RaceStep s (f c)) :
    RaceStep s (s.withPit f) := by
  unfold State.withPit
  split
  · exact h _
  · exact RaceStep.refl s

theorem RaceStep.dispatchLine {s : State} {n : Nat} {r : Record} (h : s.record? n = some r) (l : LinkNo) (p t : Nat) :
    RaceStep s (s.dispatchLine n r l p t) := by
  unfold State.dispatchLine
  split
  · exact RaceStep.scoreLine s n l p t
  · exact RaceStep.scoreLine s n l p t
  · exact RaceStep.withPit s _ fun c => RaceStep.takePitLine h c l p t
  all_goals exact RaceStep.refl s

theorem RaceStep.dispatch (s : State) (n : Nat) (l : LinkNo) (t : Nat) : RaceStep s (s.dispatch n l t) := by
  unfold State.dispatch
  split
  · split
    · exact RaceStep.refl s
    · split
      · exact RaceStep.dispatchLine ‹_› l _ t
      · exact RaceStep.withPit s _ fun c => RaceStep.takePitIn ‹_› c l t
      · exact RaceStep.withPit s _ fun c => RaceStep.takePitOut ‹_› c l t
      · exact RaceStep.refl s
  · exact RaceStep.refl s

theorem Record.identity_sight (r : Record) (l : LinkNo) (t : Nat) (q : Quality) :
    (r.sight l t q).identity = r.identity := by
  unfold Record.sight
  split <;> rfl

/-- A closed passing is discarded while ROLLING, works on the record its code resolves to, or enters the unknown list
(R68). -/
theorem State.handOn_cases (s : State) (l : LinkNo) (code t : Nat) (q : Quality) :
    (s.session.phase = .rolling ∧ s.handOn l code t q = s) ∨
    (s.session.phase ≠ .rolling ∧ (∃ n, s.table.index.find code = some n) ∧ RaceStep s (s.handOn l code t q)) ∨
    (s.session.phase ≠ .rolling ∧ s.table.index.find code = none ∧ s.handOn l code t q = s.seeUnknown l code t) := by
  unfold State.handOn
  split
  · exact .inl ⟨‹_›, rfl⟩
  · split
    · exact .inr (.inl ⟨‹_›, ⟨_, ‹_›⟩,
        (RaceStep.updRecord s _ _ fun r => Record.identity_sight r l t q).trans (RaceStep.dispatch _ _ _ _)⟩)
    · exact .inr (.inr ⟨‹_›, ‹_›, rfl⟩)

end Sys2Proof.Machine
end

