-- ==== Sys2Proof/Laws/Requests.lean ====
section
/-! SUPPORT. What the end of an event and the taking of a request can do: the attention latch, the reply, a refused
request that leaves everything but its reply. -/

namespace Sys2Proof.Machine

/-! ## The attention latch -/

theorem hasCause_zero (c : Cause) : hasCause 0#6 c = false := by
  simp [hasCause, hasBit]

theorem hasCause_of_ext {m k : Mask 6} (h : ∀ c, hasCause m c = hasCause k c) : m = k := by
  have h0 := h .session
  have h1 := h .order
  have h2 := h .records
  have h3 := h .loops
  have h4 := h .time
  have h5 := h .unknown
  have e : ∀ c i, codeIn Cause.all c = i → (hasCause m c = hasCause k c) → m.getLsbD i = k.getLsbD i := by
    intro c i hi hc
    subst hi
    exact hc
  apply BitVec.eq_of_getLsbD_eq
  intro i hi
  have hi' : i = 0 ∨ i = 1 ∨ i = 2 ∨ i = 3 ∨ i = 4 ∨ i = 5 := by omega
  rcases hi' with rfl | rfl | rfl | rfl | rfl | rfl
  · exact e .session 0 (by decide) h0
  · exact e .order 1 (by decide) h1
  · exact e .records 2 (by decide) h2
  · exact e .loops 3 (by decide) h3
  · exact e .time 4 (by decide) h4
  · exact e .unknown 5 (by decide) h5

theorem addCause_of_has {m : Mask 6} {c : Cause} (h : hasCause m c = true) : addCause m c = m := by
  apply hasCause_of_ext
  intro d
  rw [hasCause_addCause]
  by_cases hd : c = d
  · subst hd
    simp [h]
  · simp [hd]

theorem dropCause_of_not {m : Mask 6} {c : Cause} (h : hasCause m c = false) : dropCause m c = m := by
  apply hasCause_of_ext
  intro d
  rw [hasCause_dropCause]
  by_cases hd : c = d
  · subst hd
    simp [h]
  · simp [hd]

/-- The end of an event: RECORDS follows the changed-slot set, the latch follows the causes and the timer, and nothing
else of the unit moves (R161, R163). -/
theorem Reporting.settle_eq (r : Reporting) :
    ∃ causes latch, r.syncRecords.settleLatch = { r with causes := causes, latch := latch } ∧
      (∀ c, hasCause causes c = if c = .records then !r.changed.isEmpty else hasCause r.causes c) ∧
      latch = (if causes = 0#6 then false else if r.moderationExpiry = none then true else r.latch) := by
  have hc : ∀ c, hasCause r.syncRecords.causes c = if c = .records then !r.changed.isEmpty else hasCause r.causes c := by
    intro c
    simp only [Reporting.syncRecords]
    split
    · rw [hasCause_dropCause]
      rename_i he
      by_cases h : c = .records
      · simp [h, he]
      · simp [h, Ne.symm h]
    · rw [hasCause_addCause]
      rename_i he
      by_cases h : c = .records
      · simp [h, he]
      · simp [h, Ne.symm h]
  refine ⟨r.syncRecords.causes, _, ?_, hc, rfl⟩
  have hm : r.syncRecords.moderationExpiry = r.moderationExpiry := rfl
  have hl : r.syncRecords.latch = r.latch := rfl
  unfold Reporting.settleLatch
  rw [hm]
  by_cases h0 : r.syncRecords.causes = 0#6
  · simp only [h0, if_true]
    rfl
  · simp only [h0, if_false]
    cases hme : r.moderationExpiry with
    | none => simp [Reporting.syncRecords]
    | some e => simp [Reporting.syncRecords, hme]

/-- On a unit that is as every event leaves it, the end of an event changes nothing. -/
theorem Reporting.settle_of_legal {r : Reporting} (h : r.legal) : r.syncRecords.settleLatch = r := by
  obtain ⟨causes, latch, he, hc, hl⟩ := r.settle_eq
  obtain ⟨h1, -, h3, h4, -⟩ := h
  have hcauses : causes = r.causes := by
    apply hasCause_of_ext
    intro c
    rw [hc]
    split
    · rename_i hr
      subst hr
      cases hx : hasCause r.causes .records with
      | true => simpa using h1.1 hx
      | false =>
        have : ¬ r.changed ≠ [] := fun hn => by simp [h1.2 hn] at hx
        simpa using this
    · rfl
  have hlatch : latch = r.latch := by
    rw [hl, hcauses]
    split
    · rename_i h0
      cases hx : r.latch with
      | true => exact absurd h0 (h3 hx)
      | false => rfl
    · split
      · exact (h4 ‹_› ‹_›).symm
      · rfl
  rw [he, hcauses, hlatch]

/-! ## The end of an event -/

/-- An event that leaves the order agreeing and every READ SESSION item as it was ends with the latch alone. -/
theorem closeEvent_quiet {s t : State} (h : t.orderAgrees) (hs : t.sessionItems = s.sessionItems) :
    closeEvent s t = t.settleAttention := by
  rw [closeEvent, State.reorder_of_agrees h, raiseSession, if_pos hs]

/-- After every event of this kind the order list, the positions and the gaps agree (R57, R116). -/
theorem closeEvent_agrees (s t : State) : (closeEvent s t).orderAgrees := by
  have h := t.reorder_agrees
  unfold closeEvent raiseSession
  split
  · exact h
  · exact h

/-- Everything the end of an event can do to the blocks. -/
theorem closeEvent_blocks (s t : State) :
    (closeEvent s t).time = t.time ∧ (closeEvent s t).links = t.links ∧ (closeEvent s t).circuit = t.circuit ∧
    (closeEvent s t).session = t.session ∧ (closeEvent s t).freeDraws = t.freeDraws ∧
    (closeEvent s t).pending = t.pending ∧ (closeEvent s t).table = t.reorder.table ∧
    (closeEvent s t).order = t.reorder.order := by
  obtain ⟨c, -, h⟩ := t.reorder_eq
  unfold closeEvent raiseSession
  split <;> rw [h] <;> exact ⟨rfl, rfl, rfl, rfl, rfl, rfl, rfl, rfl⟩

/-! ## Requests taken -/

/-- A sound frame taken while no reply is being built (R156, R157). -/
theorem State.takeRequest_taken {s : State} {k : RequestKind} {args : List Byte} (hb : s.report.buffer ≠ .pending)
    (ha : args.length ≤ 32) (serve : State → Served) :
    s.takeRequest k args serve =
      closeEvent (s.shiftZeros (args.length + 3))
        ((serve (s.shiftZeros (args.length + 3))).state.loadReply (some k)
          (serve (s.shiftZeros (args.length + 3))).result (serve (s.shiftZeros (args.length + 3))).body) := by
  unfold State.takeRequest State.takeRequestWith
  rw [if_neg (by omega)]
  dsimp only
  rw [if_neg (by simpa using hb)]

/-- A sound frame received while a reply is being built is discarded (R157). -/
theorem State.takeRequest_overrun {s : State} {k : RequestKind} {args : List Byte} (hb : s.report.buffer = .pending)
    (ha : args.length ≤ 32) (serve : State → Served) :
    s.takeRequest k args serve = (s.shiftZeros (args.length + 3)).overrun := by
  unfold State.takeRequest State.takeRequestWith
  rw [if_neg (by omega)]
  dsimp only
  rw [if_pos (by simpa using hb)]

/-- A request whose block changes nothing leaves everything but the port's reply as it was (R158). -/
theorem State.takeRequest_unchanged {s : State} {k : RequestKind} {args : List Byte} (hs : s.settled)
    (hb : s.report.buffer ≠ .pending) (ha : args.length ≤ 32) {serve : State → Served} {w : Result}
    {b : List Byte}
    (h : serve (s.shiftZeros (args.length + 3)) =
      { state := s.shiftZeros (args.length + 3), result := w, body := b }) :
    s.takeRequest k args serve = (s.shiftZeros (args.length + 3)).loadReply (some k) w b := by
  rw [State.takeRequest_taken hb ha, h]
  dsimp only
  have ha' : ((s.shiftZeros (args.length + 3)).loadReply (some k) w b).orderAgrees := hs.1
  rw [closeEvent_quiet (s := s.shiftZeros (args.length + 3)) ha' rfl]
  have hl : ((s.shiftZeros (args.length + 3)).loadReply (some k) w b).report.legal := by
    obtain ⟨h1, h2, h3, h4, h5, h6, h7, h8⟩ := hs.2
    refine ⟨h1, h2, h3, h4, h5, rfl, ?_, ?_⟩
    · simp [State.loadReply]
    · simp [State.loadReply]
  unfold State.settleAttention
  rw [Reporting.settle_of_legal hl]

theorem State.loadReply_answers (s : State) (k : RequestKind) (args : List Byte) (w : Result) (b : List Byte) :
    Answers s ((s.shiftZeros (args.length + 3)).loadReply (some k) w b) k args w b ∧
    OnlyReply s ((s.shiftZeros (args.length + 3)).loadReply (some k) w b) :=
  ⟨⟨rfl, rfl, rfl, rfl, rfl⟩, ⟨rfl, rfl, rfl⟩, ⟨rfl, rfl, rfl⟩, ⟨rfl, rfl⟩, ⟨rfl, rfl⟩, ⟨rfl, rfl, rfl⟩⟩

/-- A request refused leaves everything but the port's reply as it was (R158). -/
theorem State.takeRequest_refused {s : State} {k : RequestKind} {args : List Byte} (hs : s.settled)
    (hb : s.report.buffer ≠ .pending) (ha : args.length ≤ 32) {serve : State → Served} {w : Result}
    (h : serve (s.shiftZeros (args.length + 3)) = refuse (s.shiftZeros (args.length + 3)) w) :
    Answers s (s.takeRequest k args serve) k args w [] ∧ OnlyReply s (s.takeRequest k args serve) := by
  rw [State.takeRequest_unchanged hs hb ha h]
  exact s.loadReply_answers k args w []

end Sys2Proof.Machine
end

