-- ==== Sys2Proof/Laws/Frames.lean ====
section
/-! SUPPORT. What a request leaves alone: a block its server leaves alone is left alone by the whole taking; and what
the guards of a request (arguments, ROLLING, a record named) can answer. -/

namespace Sys2Proof.Machine

/-! ## Guards -/

theorem withArgs_cases {α : Type} (a : Option α) (s : State) (f : α → Served) :
    (a = none ∧ withArgs a s f = refuse s .badArgument) ∨ (∃ x, a = some x ∧ withArgs a s f = f x) := by
  cases a with
  | none => exact .inl ⟨rfl, rfl⟩
  | some x => exact .inr ⟨x, rfl, rfl⟩

theorem unlessRolling_cases (s : State) (f : Served) :
    (s.session.phase = .rolling ∧ unlessRolling s f = refuse s .busy) ∨
    (s.session.phase ≠ .rolling ∧ unlessRolling s f = f) := by
  unfold unlessRolling
  split
  · exact .inl ⟨‹_›, rfl⟩
  · exact .inr ⟨‹_›, rfl⟩

theorem withRecord_cases (s : State) (n : Nat) (f : Record → Served) :
    (s.record? n = none ∧ withRecord s n f = refuse s .noSuchRecord) ∨
    (∃ r, s.record? n = some r ∧ withRecord s n f = f r) := by
  unfold withRecord
  split
  · exact .inr ⟨_, ‹_›, rfl⟩
  · exact .inl ⟨‹_›, rfl⟩

/-! ## The three outcomes of a request frame -/

/-- A request frame is refused as a frame, discarded while a reply is being built, or taken (R156, R157). -/
theorem State.takeRequestWith_cases (s : State) (e : State → State → State) (k : RequestKind) (args : List Byte)
    (serve : State → Served) :
    s.takeRequestWith e k args serve = s.badFrame .frameError (args.length + 3) ∨
    s.takeRequestWith e k args serve = (s.shiftZeros (args.length + 3)).overrun ∨
    s.takeRequestWith e k args serve =
      e (s.shiftZeros (args.length + 3))
        ((serve (s.shiftZeros (args.length + 3))).state.loadReply (some k)
          (serve (s.shiftZeros (args.length + 3))).result (serve (s.shiftZeros (args.length + 3))).body) := by
  unfold State.takeRequestWith
  split
  · exact .inl rfl
  · dsimp only
    split
    · exact .inr (.inl rfl)
    · exact .inr (.inr rfl)

/-- A refused frame leaves every block but the port as it was. -/
theorem State.badFrame_blocks (s : State) (w : Result) (n : Nat) :
    KeepsTrackside s (s.badFrame w n) ∧ KeepsRace s (s.badFrame w n) ∧ KeepsQueue s (s.badFrame w n) ∧
    KeepsTimer s (s.badFrame w n) ∧ KeepsNews s (s.badFrame w n) := by
  unfold State.badFrame
  dsimp only
  split
  · exact ⟨⟨rfl, rfl, rfl⟩, ⟨rfl, rfl, rfl⟩, ⟨rfl, rfl⟩, ⟨rfl, rfl⟩, ⟨rfl, rfl, rfl⟩⟩
  · exact ⟨⟨rfl, rfl, rfl⟩, ⟨rfl, rfl, rfl⟩, ⟨rfl, rfl⟩, ⟨rfl, rfl⟩, ⟨rfl, rfl, rfl⟩⟩

/-- A property of the blocks that the reporting unit and the order list do not touch, kept by a server, is kept by
the whole taking of its request. -/
theorem State.takeRequest_keeps {s : State} {k : RequestKind} {args : List Byte} {serve : State → Served}
    (P : TimeBase → Vector Link 8 → Circuit → Session → Nat → List Instr → Prop)
    (h0 : P s.time s.links s.circuit s.session s.freeDraws s.pending)
    (h : ∀ n, P (serve (s.shiftZeros n)).state.time (serve (s.shiftZeros n)).state.links
      (serve (s.shiftZeros n)).state.circuit (serve (s.shiftZeros n)).state.session
      (serve (s.shiftZeros n)).state.freeDraws (serve (s.shiftZeros n)).state.pending) :
    P (s.takeRequest k args serve).time (s.takeRequest k args serve).links (s.takeRequest k args serve).circuit
      (s.takeRequest k args serve).session (s.takeRequest k args serve).freeDraws
      (s.takeRequest k args serve).pending := by
  rcases s.takeRequestWith_cases closeEvent k args serve with he | he | he
  · obtain ⟨⟨h1, h2, h3⟩, ⟨-, -, h4⟩, ⟨h5, h6⟩, -⟩ := s.badFrame_blocks .frameError (args.length + 3)
    rw [State.takeRequest, he, h1, h2, h3, h4, h5, h6]
    exact h0
  · rw [State.takeRequest, he]
    exact h0
  · rw [State.takeRequest, he]
    obtain ⟨h1, h2, h3, h4, h5, h6, -, -⟩ := closeEvent_blocks (s.shiftZeros (args.length + 3))
      ((serve (s.shiftZeros (args.length + 3))).state.loadReply (some k)
          (serve (s.shiftZeros (args.length + 3))).result (serve (s.shiftZeros (args.length + 3))).body)
    rw [h1, h2, h3, h4, h5, h6]
    exact h _

end Sys2Proof.Machine
end

