-- ==== Sys2Proof/Laws/Links.lean ====
section
/-! SUPPORT. The loop links: what setting a flag and seeing a delimiter leave alone, and once for each of framing
gained, framing lost, the silence expiry, the reading of an outage and the taking of a report, everything it can do. -/

namespace Sys2Proof.Machine

variable (s : State) (l : LinkNo)

/-- A link reads back as it was set. -/
@[simp] theorem State.link_setLink_self (k : Link) : (s.setLink l k).link l = k := by
  simp [State.link, State.setLink]

/-- The other links read as before. -/
theorem State.link_setLink_ne (k : Link) {m : LinkNo} (h : m ≠ l) : (s.setLink l k).link m = s.link m := by
  have hv : ¬(l : Nat) = m := fun e => h (Fin.ext e.symm)
  simp [State.link, State.setLink, hv]

/-! ## Setting a flag -/

/-- A flag that is set already changes nothing; a new one is written on its link and raises LOOPS (R32). -/
theorem State.setLoopFlag_cases (f : LoopFlag) :
    (hasFlag (s.link l).flags f = true ∧ s.setLoopFlag l f = s) ∨
    (hasFlag (s.link l).flags f = false ∧
      s.setLoopFlag l f = (s.setLink l { s.link l with flags := addFlag (s.link l).flags f }).raise .loops) := by
  unfold State.setLoopFlag
  split
  · exact .inl ⟨‹_›, rfl⟩
  · exact .inr ⟨Bool.eq_false_iff.2 ‹_›, rfl⟩

@[simp] theorem State.setLoopFlag_time (f : LoopFlag) : (s.setLoopFlag l f).time = s.time := by
  unfold State.setLoopFlag; split <;> rfl
@[simp] theorem State.setLoopFlag_circuit (f : LoopFlag) : (s.setLoopFlag l f).circuit = s.circuit := by
  unfold State.setLoopFlag; split <;> rfl
@[simp] theorem State.setLoopFlag_table (f : LoopFlag) : (s.setLoopFlag l f).table = s.table := by
  unfold State.setLoopFlag; split <;> rfl
@[simp] theorem State.setLoopFlag_order (f : LoopFlag) : (s.setLoopFlag l f).order = s.order := by
  unfold State.setLoopFlag; split <;> rfl
@[simp] theorem State.setLoopFlag_session (f : LoopFlag) : (s.setLoopFlag l f).session = s.session := by
  unfold State.setLoopFlag; split <;> rfl
@[simp] theorem State.setLoopFlag_freeDraws (f : LoopFlag) : (s.setLoopFlag l f).freeDraws = s.freeDraws := by
  unfold State.setLoopFlag; split <;> rfl
@[simp] theorem State.setLoopFlag_pending (f : LoopFlag) : (s.setLoopFlag l f).pending = s.pending := by
  unfold State.setLoopFlag; split <;> rfl

/-! ## Framing (R23) -/

@[simp] theorem Link.sawDelimiter_framed (k : Link) (now : Nat) : (k.sawDelimiter now).framed = true := rfl
@[simp] theorem Link.sawDelimiter_framing (k : Link) (now : Nat) :
    (k.sawDelimiter now).framing = some (now + Config.framingGap) := rfl
@[simp] theorem Link.sawDelimiter_role (k : Link) (now : Nat) : (k.sawDelimiter now).role = k.role := rfl
@[simp] theorem Link.sawDelimiter_state (k : Link) (now : Nat) : (k.sawDelimiter now).state = k.state := rfl
@[simp] theorem Link.sawDelimiter_settings (k : Link) (now : Nat) : (k.sawDelimiter now).settings = k.settings := rfl
@[simp] theorem Link.sawDelimiter_flags (k : Link) (now : Nat) : (k.sawDelimiter now).flags = k.flags := rfl
@[simp] theorem Link.sawDelimiter_passings (k : Link) (now : Nat) : (k.sawDelimiter now).passings = k.passings := rfl

/-- Framing gained: the expiry is one gap on, and a DOWN link whose framing was lost becomes SILENT (R23, R24). -/
theorem State.gainFraming_cases :
    ((s.link l).framed = false ∧ (s.link l).state = .down ∧
      s.gainFraming l =
        (s.setLink l { (s.link l).sawDelimiter s.now with state := .silent }).setLoopFlag l .linkState) ∨
    (¬((s.link l).framed = false ∧ (s.link l).state = .down) ∧
      s.gainFraming l = s.setLink l ((s.link l).sawDelimiter s.now)) := by
  unfold State.gainFraming
  dsimp only
  split
  · exact .inl ⟨‹_ ∧ _›.1, ‹_ ∧ _›.2, rfl⟩
  · exact .inr ⟨‹_›, rfl⟩

/-- Framing lost: nothing while the expiry is not due; where it is, framing is absent and a LIVE or SILENT link becomes
DOWN, a LIVE one with an outage (R23, R24, R26). -/
theorem State.loseFraming_cases :
    (s.framingDue l = false ∧ s.loseFraming l = s) ∨
    (s.framingDue l = true ∧
      ((s.link l).state = .live ∧
        s.loseFraming l =
          ((s.setLink l (Link.leaveLive { s.link l with framing := none } .down s.now)).setLoopFlag l
            .linkState).settleAttention ∨
      (s.link l).state = .silent ∧
        s.loseFraming l =
          ((s.setLink l { s.link l with framing := none, state := .down }).setLoopFlag l .linkState).settleAttention ∨
      ((s.link l).state = .down ∨ (s.link l).state = .off) ∧
        s.loseFraming l = (s.setLink l { s.link l with framing := none }).settleAttention)) := by
  unfold State.loseFraming State.framingHappens
  cases hd : s.framingDue l with
  | false => exact .inl ⟨rfl, by simp⟩
  | true => right; refine ⟨rfl, ?_⟩; cases h : (s.link l).state <;> simp [h]

/-- The silence expiry: nothing unless it is due; then the link is SILENT with an outage (R24 to R26). -/
theorem State.silenceExpiry_cases :
    (s.silenceDue l = false ∧ s.silenceExpiry l = s) ∨
    (s.silenceDue l = true ∧
      s.silenceExpiry l =
        ((s.setLink l ((s.link l).leaveLive .silent s.now)).setLoopFlag l .linkState).settleAttention) := by
  unfold State.silenceExpiry State.silenceHappens
  split
  · exact .inr ⟨‹_›, rfl⟩
  · exact .inl ⟨Bool.eq_false_iff.2 ‹_›, rfl⟩

/-! ## Outages as a passing reads them (R85, R101) -/

/-- An outage overlaps when it began by the passing's time or opened at this very instant, and lasts to the interval's
start (R85, R101). -/
theorem State.outageSeen_overlaps (a b : Nat) (p : Period) :
    (s.outageSeen b p).overlaps a b = true ↔ (p.start ≤ b ∨ p.start = s.now) ∧ a ≤ p.stop.getD b := by
  unfold State.outageSeen Period.overlaps
  split
  · rename_i h
    simp [h]
  · rename_i h
    simp [h]

/-! ## Reports (R23, R27) -/

/-- A report is discarded whole without framing; with it the expiry moves on, and unless the role is OFF the report is
handled there (R23, R27). -/
theorem State.takeReport_cases (handle : State → State) :
    ((s.link l).framed = false ∧ s.takeReport l handle = s) ∨
    ((s.link l).framed = true ∧ (s.link l).role = .off ∧
      s.takeReport l handle = s.setLink l ((s.link l).sawDelimiter s.now)) ∨
    ((s.link l).framed = true ∧ (s.link l).role ≠ .off ∧
      s.takeReport l handle = handle (s.setLink l ((s.link l).sawDelimiter s.now))) := by
  unfold State.takeReport State.seeDelimiter State.receives
  cases hf : (s.link l).framed with
  | false => simp [hf]
  | true => by_cases hr : (s.link l).role = .off <;> simp [hr]

end Sys2Proof.Machine
end

