-- ==== Sys2Proof/Tests/Slice0.lean ====
section
/-! SUPPORT. Tests: ill-formed commands are refused, frames written out from the formats chapter decode, single steps
of the manual's worked examples, and one witness for every statement that has hypotheses. -/

namespace Sys2Proof.Tests

open Machine

set_option maxRecDepth 20000
set_option Elab.async false
set_option synthInstance.maxHeartbeats 400000
set_option synthInstance.maxSize 4096

/-- The state a command leaves. -/
def after (i : Instr) (s : State) : State :=
  match exec i s with
  | .next t => t
  | _ => s

/-! ## WellFormed: one ill-formed term for each check -/

theorem test_wf_reports :
    [Instr.hit 0 0 0 0 0, .hit 0 0xffffff 0 0 0, .hit 0 1 0 10000 0, .closeExpiry 0 0, .closeExpiry 7 16777215,
     .guardRemoval 0 0, .frameError 0, .unknownKind 0x01 [], .unknownKind 0xff [],
     .unknownKind 0x25 (List.replicate 33 0)].all (fun i => !i.wellFormed) = true := by decide +kernel

theorem test_wf_no_argument_kinds :
    [Instr.readTime [0], .readUnknown [0], .arm [0], .green [0], .caution [0], .clearCaution [0], .suspend [0],
     .resume [0], .chequer [0], .close [0], .haltRollover [0], .readSession [0], .readSummary [0], .readChanges [0],
     .acknowledge [0], .resetTables [0]].all (fun i => !i.wellFormed) = true := by decide +kernel

theorem test_wf_argument_ranges :
    [Instr.selectSource [2], .selectSource [], .setSector [8, 0, 0, 0, 0], .setSector [0, 0xff, 0, 0, 0],
     .setPit [1, 1, 0, 0, 0, 1, 0x10, 0], .setPit [0, 1, 0, 0, 0, 0, 0x10, 0], .setPit [0, 1, 0, 0, 0, 1, 0, 0],
     .readLoop [8], .clearLoopFlags [0, 8, 0, 0], .clearLoopFlags [1, 4, 0], .clearLoopFlags [2, 0, 0],
     .enrol [0, 0, 0, 0, 0, 1, 0], .enrol [0, 0, 0, 1, 0, 0, 0], .enrol [0, 0, 0, 1, 0, 1, 16],
     .enrol [1, 0, 0, 1, 0, 1, 0, 0], .enrol [2, 0, 0, 1, 0, 1, 0], .amend [0, 0], .amend [0x18, 1, 1],
     .amend [0x20, 1], .amend [2, 1, 0, 0], .retire [0], .reinstate [129], .exclude [0], .release [129],
     .adjust [1, 1, 0, 0, 0, 0, 0], .adjust [0, 0, 0, 0, 0, 0, 0], .readRecord [0, 0, 0], .readRecord [0, 1, 2],
     .readRecord [3, 1, 0], .setCapacity [0], .dismissUnknown [0, 0, 0, 0, 0], .dismissUnknown [1, 2],
     .readOrder [0, 1], .readOrder [1, 33], .sessionSetup [2, 0, 0, 0, 0, 0, 1, 0],
     .sessionSetup [0, 0, 1, 0, 1, 1, 1, 0], .sessionSetup [0, 0, 0, 0, 0, 1, 1, 0], .rollover [3, 0],
     .rollover [0, 8], .setModeration [101]].all (fun i => !i.wellFormed) = true := by decide +kernel

/-- SET LOOP: link, role, line position, threshold, saturation below it, silence not a multiple of 10, length. -/
theorem test_wf_set_loop :
    [Instr.setLoop [8, 1, 0, 0, 0, 32, 224, 60, 7, 208, 2, 50, 1, 244, 0],
     .setLoop [0, 4, 0, 0, 0, 32, 224, 60, 7, 208, 2, 50, 1, 244, 0],
     .setLoop [0, 1, 8, 0, 0, 32, 224, 60, 7, 208, 2, 50, 1, 244, 0],
     .setLoop [0, 1, 0, 0, 0, 0, 224, 60, 7, 208, 2, 50, 1, 244, 0],
     .setLoop [0, 1, 0, 0, 0, 32, 31, 60, 7, 208, 2, 50, 1, 244, 0],
     .setLoop [0, 1, 0, 0, 0, 32, 224, 60, 7, 208, 2, 50, 1, 245, 0],
     .setLoop [0, 1, 0]].all (fun i => !i.wellFormed) = true := by decide +kernel

theorem test_wf_accepts :
    [Instr.setLoop [0, 1, 0, 0, 0, 32, 224, 60, 7, 208, 2, 50, 1, 244, 0], .hit 0 1 0 9999 0, .enrol [0, 0, 0, 1, 0, 1, 0],
     .amend [0, 1], .acknowledge [], .frameError 1].all (fun i => i.wellFormed) = true := by decide +kernel

/-! ## Frames written out from 11_formats.md (the first two check bytes are the manual's, 11.2; the others are worked out
by hand with the polynomial of 11.2) -/

theorem test_decode_acknowledge : decodeSelection [0x22, 0x00, 0x84] = some (.acknowledge []) := by decide +kernel

theorem test_decode_echo : decodeReport 3 [0x02, 0x00, 0x2a] = some (.echo 3 0x00) := by decide +kernel

theorem test_decode_reply_selection : decodeSelection [0xff, 0x00, 0x00] = some (.replySelection 2) := by decide +kernel

theorem test_decode_hit :
    decodeReport 3 [0x01, 0x00, 0xc8, 0x06, 0xe4, 0x11, 0x76, 0x3c, 0x10] =
      some (.hit 3 51206 228 4470 60) := by decide +kernel

theorem test_decode_enrol :
    decodeSelection [0x08, 0x07, 0x00, 0x00, 0xc8, 0x06, 0x00, 0x15, 0x02, 0x92] =
      some (.enrol [0x00, 0x00, 0xc8, 0x06, 0x00, 0x15, 0x02]) := by decide +kernel

theorem test_enrol_arguments :
    EnrolArgs.parse [0x00, 0x00, 0xc8, 0x06, 0x00, 0x15, 0x02] =
      some { code := 51206, car := 21, cls := 2, grid := none } := by decide +kernel

theorem test_decode_rollover :
    decodeSelection [0x1d, 0x02, 0x02, 0x03, 0x6c] = some (.rollover [0x02, 0x03]) ∧
    RolloverArgs.parse [0x02, 0x03] =
      some { type := .race, carry := { bests := true, gridFromOrder := true, keepExcluded := false } } := by
  decide +kernel

theorem test_decode_reset_tables : decodeSelection [0x24, 0x00, 0xfa] = some (.resetTables []) := by decide +kernel

theorem test_bad_check_byte : decodeSelection [0x22, 0x00, 0x85] = some (.frameError 3) := by decide +kernel

theorem test_unknown_kind : decodeSelection [0x25, 0x00, 0xef] = some (.unknownKind 0x25 []) := by decide +kernel

/-- A HIT frame whose check byte is wrong is an invalid report; idle fill is none (R27, R170). -/
theorem test_invalid_report :
    decodeReport 3 [0x02, 0x00, 0x2b] = some (.invalidReport 3) ∧ decodeReport 3 [] = none := by decide +kernel

/-- The ECHO frame of 11.2 on a line just framed: data before the first delimiter is ignored, idle fill holds no report. -/
theorem test_line :
    LineReader.lost.takeAll 3 [0x005, 0x17e, 0x17e, 0x005, 0x17e, 0x002, 0x000, 0x02a, 0x17e, 0x17e] =
      ({ framed := true, seen := false, frame := some [] },
       [.framingGained 3, .framingGained 3, .echo 3 0x00, .framingGained 3]) := by decide +kernel


/-! ## Single steps, on the worked examples of the manual -/

/-- A link of a role, with framing until 1,000 and the default settings, its latest hit at 0. -/
def placed (role : Role) (pos : Option Nat) : Link :=
  { Link.reset with role := role, linePos := pos, framing := some 1000, state := .silent, latestHit := some 0 }

/-- The part with the links and pit settings of the examples of 05 and 06: line loops on links 3, 2 and 4, pit in on 5,
pit out on 6, and the sector minimums of 05. -/
def circuit : State :=
  { State.reset with
    links := #v[Link.reset, Link.reset, placed .line (some 1), placed .line (some 0), placed .line (some 2),
                placed .pitIn none, placed .pitOut none, Link.reset],
    circuit := { sectorMin := #v[25000000, 30000000, 20000000, 0, 0, 0, 0, 0],
                 pit := some { inAfter := 2, outBefore := 1, length := 410000, limit := 6000 } } }

/-- A RACE of the examples: echo guard 10 s, delta direction BOTH. -/
def raceSetup : SessionSetup :=
  { type := .race, lapLimit := 0, timeLimit := 60, closeTimeout := 10, echoGuard := 10, delta := .both }

/-- A session in a state after GREEN at 50,000,000. -/
def running (ph : Phase) : Session :=
  { Session.reset with phase := ph, setup := some raceSetup, locked := true, greenTime := some 50000000 }

/-- A record as ENROL leaves it, with L = 3. -/
def entrant (code car : Nat) : Record := newRecord { code := code, car := car, cls := 1, grid := none } 0 3

/-- A part with these records, the index and the order that belong to them, and a session. -/
def field (c : Session) (rs : List (Nat × Record)) : State :=
  let list := orderOf ((c.setup.map (·.type)).getD .race) rs
  { circuit with
    session := c,
    order := { circuit.order with list := list },
    table := { circuit.table with
      records := rs.map fun p => (p.1, { p.2 with position := placeOf list p.1 }),
      index := rs.foldl (fun m p => m.put p.2.code p.1) [] } }

/-- The same part with a passing of a code, counted from hits all at `t`, due to close on a link. -/
def due (s : State) (l : LinkNo) (code t : Nat) : State :=
  { s with
    time := { s.time with now := t + 60000 },
    links := s.links.set l { s.link l with
      latestHit := some t,
      passings := (s.link l).passings.put code (.passing
        { first := t, last := t, count := 2, weight := 2, moment := 0, saturated := false, expiry := t + 60000 }) } }

/-- What a request was answered. -/
def answer (s : State) : Option Result := s.report.reply.map (·.result)

/-! ### The time base (the examples of 01) -/

theorem test_pin_reset : after .pinReset (due (field (running .green) [(1, entrant 51206 21)]) 3 51206 100) = State.reset := by
  decide +kernel

/-- While LOCKED with a trim of -40, P is 25,000 and the 25,000th raw tick adds 0; with +40 it adds 2. -/
def locked (trim : Int) (count : Nat) : State :=
  { State.reset with time := { TimeBase.reset with
      now := 7300180, source := .reference, mode := .locked, trim := trim, trimCount := count, monitor := .qualified,
      goodCount := 4, lastInterval := some { ticks := (1000000 - trim).toNat, verdict := .good },
      lastEdge := some 7300180, mark := 730 } }

theorem test_corrective_tick :
    (after .correctiveTick (locked (-40) 24999)).time.now = 7300180 ∧
    (after .correctiveTick (locked 40 24999)).time.now = 7300182 ∧
    (after .correctiveTick (locked 40 24999)).time.trimCount = 0 := by decide +kernel

theorem test_raw_tick :
    (after .rawTick (locked (-40) 24998)).time.now = 7300181 ∧
    (after .rawTick (locked (-40) 24998)).time.trimCount = 24999 ∧
    (after .rawTick (locked (-40) 24998)).time.absence = 1 := by decide +kernel

/-- Mark 1,024 carries mark number 0 (01, the low byte turning over), on a link whose role is not OFF. -/
theorem test_mark_issue :
    let s := { circuit with time := { TimeBase.reset with now := 10240000, mark := 1023 } }
    (after .markIssue s).time.mark = 1024 ∧ ((after .markIssue s).link 3).downstream.take 3 = [0x17e, 0x010, 0x000] ∧
    ((after .markIssue s).link 0).downstream = [] := by decide +kernel

/-- E5 of 01 qualifies with the mode FREE; E6 sets the trim to -40 while LOCKED. -/
theorem test_ref_edge :
    let e5 := { State.reset with time := { TimeBase.reset with
      now := 6300160, mark := 630, monitor := .qualifying, goodCount := 3, absence := 1000040, lastEdge := some 5300120,
      lastInterval := some { ticks := 1000040, verdict := .good } } }
    let e6 := { locked 0 0 with time := { (locked 0 0).time with absence := 1000040 } }
    (after .refEdge e5).time.monitor = .qualified ∧ (after .refEdge e5).time.mode = .free ∧
    (after .refEdge e6).time.trim = -40 ∧ (after .refEdge e6).time.lastEdge = some 7300180 := by decide +kernel

theorem test_absence_expiry :
    let s := { locked (-40) 7 with time := { (locked (-40) 7).time with absence := 1500000 } }
    (after .absenceExpiry s).time.mode = .holdover ∧ (after .absenceExpiry s).time.monitor = .absent ∧
    (after .absenceExpiry s).time.trim = -40 ∧ hasCause (after .absenceExpiry s).report.causes .time = true := by
  decide +kernel

/-- The SELECT SOURCE of 01 at raw 6,800,000, and the one at 4,500,000 that is refused. -/
theorem test_select_source :
    let s := { locked 0 0 with time := { (locked 0 0).time with
      source := .internal, mode := .free, lastInterval := some { ticks := 1000040, verdict := .good } } }
    (after (.selectSource [1]) s).time.trim = -40 ∧ (after (.selectSource [1]) s).time.mode = .locked ∧
    answer (after (.selectSource [1]) State.reset) = some .notQualified := by decide +kernel

/-- The mark limit flag is clear, 01h. -/
theorem test_read_time :
    (after (.readTime []) State.reset).report.reply.map (fun r => (r.result, r.body.length, r.body.getD 11 0xff)) =
      some (.ok, 28, 0x01) := by
  decide +kernel

/-! ### Links (the night-time failure of 02) and passings (the examples of 03) -/

/-- Link 2 of 02, LIVE, its last delimiter 1,000 microseconds ago. -/
def live (expiry : Nat) : State :=
  { circuit with
    time := { TimeBase.reset with now := 36000000300, mark := 3600000 },
    links := circuit.links.set 2 { circuit.link 2 with state := .live, framing := some 36000000300, silenceExpiry := some expiry } }

theorem test_echo :
    ((after (.echo 2 (BitVec.ofNat 8 3600000)) (live 36000490300)).link 2).silenceExpiry = some 36000500300 := by
  decide +kernel

theorem test_silence_expiry :
    let s := { live 36000500300 with time := { TimeBase.reset with now := 36000500300, mark := 3600050 } }
    ((after (.silenceExpiry 2) s).link 2).state = .silent ∧
    ((after (.silenceExpiry 2) s).link 2).outage = some { start := 36000500300, stop := none } := by decide +kernel

/-- Framing is lost 1,000 microseconds after the last delimiter, and not before; a report's delimiter moves that on; a tick
that finds the loss due takes it. -/
theorem test_framing :
    ((after (.framingLost 2) (live 36000490300)).link 2).state = .down ∧
    ((after (.framingGained 2) (after (.framingLost 2) (live 36000490300))).link 2).state = .silent ∧
    ((after (.framingLost 2) circuit).link 2).framing = some 1000 ∧
    ((after (.noise 2 9) (live 36000490300)).link 2).framing = some 36000001300 ∧
    ((after .rawTick (live 36000490300)).link 2).framing = none := by decide +kernel

theorem test_noise :
    ((after (.noise 2 31) circuit).link 2).flags = addFlag 0 .noiseChange ∧
    ((after (.noise 2 32) (after (.noise 2 31) circuit)).link 2).flags = addFlags 0 [.noisy, .noiseChange] ∧
    ((after (.noise 2 31) circuit).link 2).noise = some 31 := by decide +kernel

theorem test_invalid_report_flags :
    ((after (.invalidReport 2) circuit).link 2).flags = addFlag 0 .corrupt ∧
    after (.invalidReport 0) circuit = circuit := by decide +kernel

/-- Link 3 of 03 before hit 1, at 10,000,400 after mark 1,000. -/
def beforeHits : State :=
  { circuit with
    time := { TimeBase.reset with now := 10000400, mark := 1000 },
    links := circuit.links.set 3 { circuit.link 3 with
      latestHit := some 9950210,
      settings := { LinkSettings.default with latency := 120, threshold := 40, saturation := 200 } } }

/-- The same link before hit 4: hits 1 to 3 of the table of 03. -/
def beforeFourth : State :=
  { beforeHits with
    time := { TimeBase.reset with now := 10001900, mark := 1000 },
    links := beforeHits.links.set 3 { beforeHits.link 3 with
      latestHit := some 9965950,
      passings := [(51206, .passing { first := 9964350, last := 9965950, count := 3, weight := 293, moment := 346400,
                                      saturated := true, expiry := 10025950 })] } }

theorem test_hit_opens :
    ((after (.hit 3 51206 228 4470 60) beforeHits).link 3).passings =
      [(51206, .passing { first := 9964350, last := 9964350, count := 1, weight := 21, moment := 0, saturated := false,
                          expiry := 10024350 })] ∧
    ((after (.hit 3 51206 233 4470 60) beforeHits).link 3).flags = addFlag 0 .stale := by decide +kernel

theorem test_hit_joins :
    ((after (.hit 3 51206 228 6870 120) beforeFourth).link 3).passings =
      [(51206, .passing { first := 9964350, last := 9966750, count := 4, weight := 374, moment := 540800,
                          saturated := true, expiry := 10026750 })] := by decide +kernel

/-- The passing of 03 closes at 10,026,750 with time 9,965,796, SATURATED, and goes to the record of its code. -/
theorem test_close_expiry_times_the_passing :
    let s := { field Session.reset [(7, entrant 51206 21)] with
      time := { TimeBase.reset with now := 10026750, mark := 1002 },
      links := beforeHits.links.set 3 { beforeHits.link 3 with
        latestHit := some 9966750,
        passings := [(51206, .passing { first := 9964350, last := 9966750, count := 4, weight := 374, moment := 540800,
                                        saturated := true, expiry := 10026750 })] } }
    ((after (.closeExpiry 3 51206) s).record? 7).map (·.sighting) =
      some (some { link := 3, time := 9965796, quality := .saturated }) ∧
    ((after (.closeExpiry 3 51206) s).link 3).passings = [] := by decide +kernel

/-- The removal expiry of 03 at 537,300,000. -/
theorem test_guard_removal :
    let s := fun now : Nat => { circuit with
      time := { TimeBase.reset with now := now, mark := now / 10000 },
      links := circuit.links.set 6 { circuit.link 6 with
        passings := [(70013, .guard { lastAbsorbed := 537240000, expiry := 537300000 })] } }
    ((after (.guardRemoval 6 70013) (s 537300000)).link 6).passings = [] ∧
    after (.guardRemoval 6 70013) (s 537299999) = s 537299999 := by decide +kernel

theorem test_set_loop :
    ((after (.setLoop [0, 1, 2, 0, 5, 40, 200, 60, 7, 208, 2, 50, 1, 244, 1]) State.reset).link 0).settings.latency = 5 ∧
    (after (.setLoop [0, 1, 2, 0, 5, 40, 200, 60, 7, 208, 2, 50, 1, 244, 1]) State.reset).lineCount = 3 ∧
    answer (after (.setLoop [0, 1, 2, 0, 5, 40, 200, 60, 7, 208, 2, 50, 1, 244, 1]) { State.reset with
      session := running .green }) = some .locked := by decide +kernel

theorem test_set_sector : (after (.setSector [1, 0x01, 0xc9, 0xc3, 0x80]) State.reset).circuit.sectorMin[1] = 30000000 := by
  decide +kernel

theorem test_set_pit :
    (after (.setPit [2, 1, 0x00, 0x06, 0x41, 0x90, 0x17, 0x70]) State.reset).circuit.pit =
      some { inAfter := 2, outBefore := 1, length := 410000, limit := 6000 } := by decide +kernel

/-- Of the optional items of R34, link 3 has its line position and latest hit; links 2 to 4 are LINE; pit settings. -/
theorem test_read_loop :
    (after (.readLoop [3]) circuit).report.reply.map (fun r => (r.result, r.body.take 4)) =
      some (.ok, [0x47, 0x11, 0x01, 0x00]) ∧
    (after (.readLoop [3]) circuit).links = circuit.links := by decide +kernel

theorem test_clear_loop_flags :
    ((after (.clearLoopFlags [0, 2, 0, 4]) (after (.echo 2 9) (after (.invalidReport 2) circuit))).link 2).flags =
      addFlag 0 .corrupt := by decide +kernel

/-! ### Competitors and scoring (the examples of 05, 06 and 07) -/

theorem test_enrol :
    ((after (.enrol [0, 0, 0xc8, 0x06, 0, 21, 2]) (field Session.reset [(1, entrant 9 8)])).record? 2).map
      (fun r => (r.code, r.car, r.cls, r.state)) = some (51206, 21, 2, .enrolled) ∧
    answer (after (.enrol [0, 0, 0, 9, 0, 21, 2]) (field Session.reset [(1, entrant 9 8)])) = some .codeInUse := by
  decide +kernel

theorem test_amend :
    let t := after (.amend [3, 1, 0, 0, 7, 0, 77]) (field Session.reset [(1, entrant 9 8)])
    t.table.index = [(7, 1)] ∧ (t.record? 1).map (fun r => (r.code, r.car)) = some (7, 77) := by decide +kernel

/-- A RUNNING record seen last at position 1 at 1,000,000. -/
def runner (code car : Nat) : Record :=
  { entrant code car with state := .running, lastPos := some 1, lastTime := some 1000000, latest := some 1000000 }

theorem test_retire_and_reinstate :
    let t := after (.retire [1]) (field (running .green) [(1, runner 9 8)])
    (t.record? 1).map (fun r => (r.state, r.retiredFrom, r.position)) = some (.retired, some .running, none) ∧
    ((after (.reinstate [1]) { t with report := Reporting.reset }).record? 1).map (fun r => (r.state, r.retiredFrom)) =
      some (.running, none) := by decide +kernel

theorem test_exclude :
    ((after (.exclude [1]) (field (running .green) [(1, runner 9 8)])).record? 1).map (fun r => (r.state, r.position)) =
      some (.excluded, none) := by decide +kernel

theorem test_release :
    (after (.release [1]) (field (running .green) [(1, entrant 9 8)])).table.index = [] ∧
    answer (after (.release [1]) (field (running .green) [(1, runner 9 8)])) = some .wrongState := by decide +kernel

/-- Laps from 0 less 1 stay at 0, the net adjustment is -1, the penalty 5 s. -/
theorem test_adjust :
    (after (.adjust [1, 0xff, 0xff, 0x00, 0x4c, 0x4b, 0x40]) (field (running .green) [(1, runner 9 8)])).report.reply.map
      (·.body) = some [0, 0, 0xff, 0xff, 0x00, 0x4c, 0x4b, 0x40] := by decide +kernel

theorem test_read_record :
    let t := after (.readRecord [2, 0, 8, 1]) (field (running .green) [(1, { runner 9 8 with notices := 5 })])
    t.report.reply.map (fun r => (r.body.length, r.body.head?)) = some (185, some 1) ∧
    (t.record? 1).map (·.notices) = some 0 ∧ t.report.changed = [1] := by decide +kernel

theorem test_set_capacity :
    (after (.setCapacity [1]) (field Session.reset [(1, entrant 9 8)])).table.slotLimit = 1 ∧
    answer (after (.setCapacity [1]) (field Session.reset [(2, entrant 9 8)])) = some .wrongState := by decide +kernel

/-- The part with one code on its unknown list. -/
def stranger : State :=
  { circuit with table := { circuit.table with
      unknown := [{ code := 700, first := 100, last := 300, link := 3, sightings := 255 }], unknownFull := true } }

theorem test_read_unknown :
    (after (.readUnknown []) stranger).report.reply.map (·.body) =
      some [1, 1, 0, 2, 0xbc, 0, 0, 0, 0, 0, 100, 0, 0, 0, 0, 1, 0x2c, 3, 255] := by decide +kernel

theorem test_dismiss_unknown :
    (after (.dismissUnknown [0, 0, 2, 0xbc, 1]) stranger).table.unknown = [] ∧
    (after (.dismissUnknown [0, 0, 2, 0xbc, 1]) stranger).table.unknownFull = false ∧
    answer (after (.dismissUnknown [0, 0, 2, 0xbd, 0]) stranger) = some .noSuchRecord := by decide +kernel

theorem test_read_order :
    (after (.readOrder [1, 32]) (field (running .green) [(4, runner 9 8), (9, { runner 7 6 with laps := 1 })])).report.reply.map
      (fun r => (r.body.take 5, r.body.length)) = some ([2, 2, 2, 1, 9], 35) := by decide +kernel

/-- Car 8 of 05 before event A. -/
def car8 : Record :=
  { entrant 812 8 with
    state := .running, laps := 411, started := true, lapStart := some 35963480000, lastPos := some 2,
    lastTime := some 36024050000, latest := some 36024050000, delta := some 480000,
    sectors := [.timed 25120000, .timed 35450000, .pending],
    bestLap := some { time := 85910000, number := 37, setTime := 3200000000,
                      sectors := [some 24980000, some 35110000, some 25820000] },
    bestSectors := [some 24950000, some 35080000, some 25790000] }

/-- The part of 05, with link 2's outage. -/
def race05 (r : Record) : State :=
  let s := field (running .green) [(12, r)]
  { s with links := s.links.set 2 { s.link 2 with outage := some { start := 36000500300, stop := some 36092010300 } } }

/-- Events A, B and F of 05. -/
theorem test_scoring :
    let a := after (.closeExpiry 3 812) (due (race05 car8) 3 812 36050000000)
    let b := after (.closeExpiry 4 812) (due a 4 812 36110000000)
    let f := after (.closeExpiry 2 812) (due (race05 { car8 with
      laps := 413, lapStart := some 36136300000, lastTime := some 36197000000, latest := some 36197000000,
      delta := some 610000, sectors := [.timed 25200000, .timed 35500000, .pending],
      elapsed := some 36086300000 }) 2 812 36248200000)
    (a.record? 12).map (fun r => (r.laps, r.delta, r.elapsed)) = some (412, some 610000, some 36000000000) ∧
    (a.record? 12).bind (·.lastLap.map (·.time)) = some (.timed 86520000) ∧
    (b.record? 12).map (fun r => (r.sectors, r.delta)) = some ([.excused, .excused, .pending], some (-90000)) ∧
    (f.record? 12).map (fun r => (r.laps, r.lapStart, r.sectors, r.lastTime)) =
      some (414, none, [.missed, .pending, .pending], none) ∧
    (f.record? 12).bind (·.lastLap.map fun x => (x.time, x.sectors)) =
      some (.unseen, [.timed 25200000, .timed 35500000, .missed]) := by
  decide +kernel

/-- Loop 1 falls SILENT at the instant at which a passing that missed it is taken: taken first, the outage excuses; taken
second, it does not. One that opened sooner, but after the passing's time, does not (R85, R101). -/
theorem test_outage_at_the_instant :
    let s := due (race05 { car8 with
      lapStart := some 36050000000, lastPos := some 0, lastTime := some 36100000000, latest := some 36100000000 }) 4 812 36200000000
    let live := fun (expiry : Nat) => { s with links := s.links.set 2 { s.link 2 with
      state := .live, outage := none, silenceExpiry := some expiry } }
    let status := fun (t : State) => (t.record? 12).map fun r => r.sectors.take 2
    status (after (.closeExpiry 4 812) (after (.silenceExpiry 2) (live s.now))) = some [.excused, .excused] ∧
    status (after (.silenceExpiry 2) (after (.closeExpiry 4 812) (live s.now))) = some [.missed, .missed] ∧
    ((after (.silenceExpiry 2) (live s.now)).link 2).outage = some { start := 36200060000, stop := none } ∧
    status (after (.closeExpiry 4 812) { live s.now with links := s.links.set 2 { s.link 2 with
      outage := some { start := 36200059999, stop := none } } }) = some [.missed, .missed] := by decide +kernel

/-- Car 21 of 06 before event C. -/
def car21 : Record :=
  { entrant 821 21 with
    state := .running, laps := 60, started := true, lapStart := some 5120000000, lastPos := some 2,
    lastTime := some 5181000000, latest := some 5181000000, delta := some 1000000, pitStops := 2,
    sectors := [.timed 25400000, .timed 35600000, .pending],
    bestLap := some { time := 85000000, number := 20, setTime := 2000000000,
                      sectors := [some 25000000, some 35000000, some 25000000] },
    bestSectors := [some 25000000, some 35000000, some 25000000] }

/-- Events C and D of 06. -/
theorem test_pit_stop :
    let c := after (.closeExpiry 5 821) (due (field (running .green) [(3, car21)]) 5 821 5190300000)
    let d := after (.closeExpiry 6 821) (due c 6 821 5214900000)
    (c.record? 3).map (fun r => (r.state, r.pitStops, r.sectors, r.lapFlags)) =
      some (.pit, 3, [.timed 25400000, .timed 35600000, .bypassed], addLap 0 .pit) ∧
    (d.record? 3).bind (·.pit) =
      some { entry := some 5190300000, exit := some 5214900000, transit := some 24600000, speed := some 6000,
             speeding := false, isOpen := false } ∧
    (d.record? 3).bind (·.lastLap.map fun x => (x.time, x.flags)) = some (.timed 94900000, addLap 0 .pit) ∧
    (d.record? 3).map (fun r => (r.laps, r.delta, r.elapsed)) = some (61, some 9900000, some 5164900000) ∧
    (d.record? 3).map (fun r => (r.state, r.sectors, r.lapFlags, r.lastPos)) =
      some (.running, [.bypassed, .pending, .pending], addLap 0 .out, some 0) := by
  decide +kernel

/-- Event E of 06 without D: the pit-out was missed, lap 61 completes UNSEEN at the inferred exit, and E ends sector 0
UNTIMED. -/
theorem test_missed_pit_out :
    let c := after (.closeExpiry 5 821) (due (field (running .green) [(3, car21)]) 5 821 5190300000)
    let e := after (.closeExpiry 2 821) (due c 2 821 5242100000)
    (e.record? 3).bind (·.lastLap.map fun x => (x.number, x.time, x.flags)) = some (61, .unseen, addLap 0 .pit) ∧
    (e.record? 3).map (fun r => (r.sectors, r.delta, r.lapStart, r.lapFlags)) =
      some ([.untimed, .pending, .pending], none, none, addLap 0 .out) ∧
    (e.record? 3).map (fun r => (r.laps, r.pitStops, r.state, r.lastPos)) = some (61, 3, .running, some 1) := by
  decide +kernel

/-- Events 7 and 8 of 07 at entry 3, and the car beyond the reach of the lead table. -/
theorem test_lead_table :
    let o7 := ({ list := [], lead := [(2, { index := 2, time := 75300000 })], highest := some 2 } : OrderBlock).take 3 3 110600000
    let far : OrderBlock := { list := [], lead := [(13, { index := 397, time := 9 })], highest := some 400 }
    o7.highest = some 3 ∧ (o7.outcome 3 3 110550000).gap = .time 0 ∧
    (o7.take 3 3 110550000).lead.find 3 = some { index := 3, time := 110550000 } ∧
    (far.outcome 3 269 10).gap = .lapsDown 43 ∧ far.take 3 269 10 = far := by decide +kernel

/-! ### Sessions (the examples of 08 and 09) -/

/-- The setup of 08 as SESSION SETUP carries it: RACE, no lap limit, 60 min, 10 min, 10 s, BOTH. -/
theorem test_session_setup :
    (after (.sessionSetup [2, 0, 0, 0, 60, 10, 10, 3]) circuit).session.setup = some raceSetup := by decide +kernel

theorem test_arm :
    let s := { circuit with session := { Session.reset with setup := some raceSetup } }
    (after (.arm []) s).session.phase = .armed ∧ (after (.arm []) s).session.locked = true ∧
    answer (after (.arm []) circuit) = some .badConfig := by decide +kernel

/-- A session of 08 at a time. -/
def at08 (now : Nat) (c : Session) : State := { field c [(4, runner 9 8)] with time := { TimeBase.reset with now := now } }

/-- The session of 08 GREEN since 1,200,000,000. -/
def green08 : Session :=
  { running .green with greenTime := some 1200000000, greenSource := some .start, timeLimitExpiry := some 4800000000 }

theorem test_start_and_green :
    (after .startEdge (at08 1200000000 { running .armed with greenTime := none })).session = green08 ∧
    (after (.green []) (at08 1200000000 { running .armed with greenTime := none })).session.greenSource = some .request ∧
    answer (after (.green []) (at08 1200500000 green08)) = some .wrongState := by decide +kernel

theorem test_caution :
    let t := after (.caution []) (at08 2000000000 green08)
    t.session.phase = .caution ∧ (t.record? 4).map (·.lapFlags) = some (addLap 0 .caution) ∧
    (after (.clearCaution []) { t with report := Reporting.reset }).session.phase = .green := by decide +kernel

/-- SUSPEND at 3,000,000,000 and RESUME at 3,900,000,000: the expiry moves to 5,700,000,000. -/
theorem test_suspend_and_resume :
    let t := after (.suspend []) (at08 3000000000 green08)
    let u := after (.resume []) { t with report := Reporting.reset, time := { TimeBase.reset with now := 3900000000 } }
    t.session.resumeState = some .green ∧ t.session.timeLimitExpiry = none ∧
    u.session.timeLimitExpiry = some 5700000000 ∧ u.session.totalSuspended = 900000000 ∧
    (u.record? 4).map (·.lapFlags) = some (addLap 0 .suspended) := by decide +kernel

theorem test_time_limit_expiry :
    let t := after .timeLimitExpiry (at08 5700000000 { green08 with timeLimitExpiry := some 5700000000 })
    t.session.finishPending = true ∧ t.session.timeLimitExpiry = none ∧ t.session.phase = .green := by decide +kernel

/-- A chequer's close timeout is 10 minutes after it; it then closes the session. -/
theorem test_chequer_and_close_timeout :
    let t := after (.chequer []) (at08 5730060000 green08)
    t.session.closeExpiry = some 6330060000 ∧ t.session.phase = .chequered ∧
    (after .closeTimeoutExpiry { t with time := { TimeBase.reset with now := 6330060000 } }).session.phase = .closed := by
  decide +kernel

theorem test_close :
    (after (.close []) (at08 5730060000 green08)).session.phase = .closed ∧
    (after (.close []) (at08 5730060000 green08)).session.locked = false := by decide +kernel

/-- The table of 09 but for slots 2, 11 and 20: session 37, slots 4, 9 and 15 in the order. -/
def closed37 : State :=
  let best := fun (t u : Nat) => some ({ time := t, number := 1, setTime := u, sectors := [none, none, none] } : BestLap)
  field { running .closed with locked := false, number := 37 }
    [(4, { runner 9 7 with session := 37, state := .finished, laps := 40, bestLap := best 85910000 3150000000 }),
     (9, { runner 8 22 with session := 37, state := .finished, laps := 39, bestLap := best 85640000 4410000000 }),
     (15, { runner 7 31 with session := 37, laps := 38, bestLap := best 86200000 2870000000 })]

theorem test_rollover :
    let t := after (.rollover [1, 7]) closed37
    t.session.number = 38 ∧ t.session.phase = .rolling ∧ closed37.order.list = [4, 9, 15] ∧ t.order.list = [9, 4, 15] := by
  decide +kernel

theorem test_rollover_step_and_halt :
    let t := after .rolloverStep (after (.rollover [1, 7]) closed37)
    (t.record? 9).map (fun r => (r.state, r.session, r.grid, r.bestLap.map (·.time))) =
      some (.enrolled, 38, some 1, some 85640000) ∧ t.order.list = [4, 15] ∧
    (after (.haltRollover []) { t with report := Reporting.reset }).session.incomplete = true := by decide +kernel

/-- CLOSED, INCOMPLETE and FINISH_PENDING clear, the lock released. -/
theorem test_read_session :
    (after (.readSession []) closed37).report.reply.map (fun r => (r.result, (r.body.drop 8).take 4)) =
      some (.ok, [0x06, 0x01, 0x01, 0x01]) ∧
    answer (after (.readSession []) (after .replyCompletion (after (.rollover [1, 7]) closed37))) = some .busy := by
  decide +kernel

/-! ### The request port and attention (the example of 10) -/

/-- 10 at 100,000,000: slots 4 and 9 changed, RECORDS and ORDER pending, the latch set. -/
def attention : State :=
  { circuit with
    time := { TimeBase.reset with now := 100600000 },
    report := { Reporting.reset with changed := [4, 9], causes := addCause (addCause 0 .records) .order, latch := true } }

/-- The latch is set, 00h. -/
theorem test_read_summary :
    (after (.readSummary []) attention).report.reply.map (·.body.take 4) = some [0x00, 0x06, 0x02, 0x00] ∧
    (after (.readSummary []) attention).report.causes = addCause 0 .records ∧
    (after (.readSummary []) attention).report.latch = true := by decide +kernel

theorem test_read_changes :
    (after (.readChanges []) attention).report.reply.map (·.body) = some [2, 4, 9] ∧
    (after (.readChanges []) { attention with report := { attention.report with causes := addCause 0 .records } }).attn =
      false := by decide +kernel

theorem test_acknowledge :
    (after (.acknowledge []) attention).report.moderationExpiry = some 100620000 ∧
    (after (.acknowledge []) attention).attn = false := by decide +kernel

theorem test_moderation_expiry :
    let s := { attention with
      report := { attention.report with latch := false, moderationExpiry := some 100600000 } }
    (after .moderationExpiry s).attn = true ∧ (after .moderationExpiry s).report.moderationExpiry = none := by
  decide +kernel

theorem test_set_moderation :
    (after (.setModeration [100]) circuit).report.moderation = 100 ∧
    answer (after (.setModeration [101]) circuit) = some .badArgument := by decide +kernel

/-- A bad frame is answered at once; a frame while a reply is being built marks it OVERRUN. -/
theorem test_bad_frames :
    answer (after (.frameError 3) circuit) = some .frameError ∧
    answer (after (.unknownKind 0x25 []) circuit) = some .unknownKind ∧
    (after (.unknownKind 0x25 []) (after (.arm []) circuit)).report.reply.map (fun r => (r.kind, r.overrun)) =
      some (some .arm, true) := by decide +kernel

/-- The reply to ACKNOWLEDGE once built: kind 22h, OK, no marks, no body, a check byte, then FFh. -/
theorem test_replies :
    let t := after (.replySelection 7) (after .replyCompletion (after (.acknowledge []) circuit))
    t.report.sdo.take 5 = [0x22, 0, 0, 0, 0] ∧ t.report.sdo.drop 6 = [0xff] ∧ t.report.readFlag = true := by
  decide +kernel

theorem test_reset_tables :
    (after (.resetTables []) closed37).table = CompetitorTable.reset ∧
    (after (.resetTables []) closed37).circuit = closed37.circuit := by decide +kernel

/-! ## Witnesses: for each statement with hypotheses, states and operands that meet them, clause by clause -/

/-- Every command answers a next state. -/
theorem exec_after (c : Instr) (s : State) : exec c s = .next (after c s) := by cases c <;> rfl

theorem step_after {s : State} {c : Instr} {rest : List Instr} (h : s.pending = c :: rest) :
    step s = .next (after c { s with pending := rest }) := by
  unfold step
  rw [h]
  exact exec_after c _

theorem all_records {s : State} {P : Nat → Record → Prop} (h : ∀ p ∈ s.table.records, P p.1 p.2) (n : Nat) (r : Record)
    (e : s.record? n = some r) : P n r := h (n, r) (KeyMap.find_mem e)

theorem witness_StepTakesFront : ({ State.reset with pending := [.rawTick, .refEdge] } : State).pending = .rawTick :: [.refEdge] :=
  rfl

theorem witness_RequestFramesDecode : (List.replicate 32 (0xff : Byte)).length ≤ 32 := by decide

theorem witness_ReportsDecode :
    [Instr.hit 0 1 0 0 0, .hit 7 0xfffffe 255 9999 255, .echo 7 255, .noise 0 0].all
      (fun i => i.wellFormed && (encodeReport i).isSome) = true ∧
    (LineReader.lost.takeAll 7 [0x17e, 0x17e, 0x17e]).1 = { framed := true, seen := false, frame := some [] } ∧
    (LineReader.lost.takeAll 7 [0x17e, 0x17e]).1 = { framed := true, seen := false, frame := none } := by decide +kernel

theorem witness_ArgumentsParse :
    ({ link := 7, role := .line, linePos := 7, settings := LinkSettings.default } : SetLoopArgs).inRange = true ∧
    ({ link := 7, role := .off, linePos := 255, settings := LinkSettings.default } : SetLoopArgs).inRange = true ∧
    ({ sector := 7, minimum := 600000000 } : SetSectorArgs).inRange = true ∧
    ({ inAfter := 7, outBefore := 0, length := 2000000, limit := 1000 } : PitSettings).inRange = true ∧
    ({ code := 16777214, car := 999, cls := 15, grid := some 128 } : EnrolArgs).inRange = true ∧
    ({ slot := 128, code := some 1, car := some 999, cls := some 15, grid := .remove } : AmendArgs).inRange = true ∧
    slotOk 1 = true ∧ slotOk 128 = true ∧
    ({ slot := 1, laps := -255, penalty := 4294967295 } : AdjustArgs).inRange = true ∧
    ({ who := .code 16777214, clear := true } : ReadRecordArgs).who.inRange = true ∧
    ({ code := some 1, clearFull := true } : DismissArgs).code.all codeOk = true ∧
    ({ first := 128, count := 32 } : ReadOrderArgs).inRange = true ∧ raceSetup.inRange = true ∧
    SpellsSetup [0x02#8, 0x00#8, 0x0a#8, 0x00#8, 0x00#8, 0x3c#8, 0x01#8, 0x03#8]
      { type := .race, lapLimit := 10, timeLimit := 0, closeTimeout := 60, echoGuard := 1, delta := .both } ∧
    SpellsAmend [0x11#8, 0x80#8, 0xff#8, 0xff#8, 0xfe#8]
      { slot := 128, code := some 16777214, car := none, cls := none, grid := .remove } ∧
    SpellsAdjust [0x01#8, 0xff#8, 0x01#8, 0x00#8, 0x00#8, 0x00#8, 0x00#8] { slot := 1, laps := -255, penalty := 0 } := by
  decide +kernel

theorem witness_Ticks :
    State.reset.quiet ∧ (locked (-40) 24998).quiet ∧ (locked (-40) 24999).quiet ∧ (24999 : Nat) + 1 = 1000000 / (-40 : Int).natAbs ∧
    ({ State.reset with time := { TimeBase.reset with
      now := 281474976710655, mark := 4294967295, markLimit := true } } : State).quiet := by decide +kernel

theorem witness_TimeNeverFalls :
    (locked 40 24999).time.now ≤ 281474976710655 ∧
    exec .correctiveTick (locked 40 24999) = .next (after .correctiveTick (locked 40 24999)) ∧
    Instr.correctiveTick ≠ .pinReset :=
  ⟨by decide +kernel, exec_after _ _, by decide⟩

theorem witness_TimeBaseKept :
    (locked 40 24999).time.legal ∧
    step { locked 40 24999 with pending := [.correctiveTick] } =
      .next (after .correctiveTick { locked 40 24999 with pending := [] }) :=
  ⟨by decide +kernel, step_after rfl⟩

/-- A part at a mark. -/
def atMark (m : Nat) : State := { circuit with time := { TimeBase.reset with now := (m + 1) * 10000, mark := m } }

theorem witness_MarkIssue : ∀ m ∈ [0, 1023, 4294967294],
    (atMark m).report.legal ∧ (atMark m).time.markLimit = false ∧
    ((atMark m).time.mark + 1) * 10000 ≤ (atMark m).time.now := by decide +kernel

/-- A part whose monitor has counted good intervals and measured ticks since the last edge. -/
def monitored (mon : Monitor) (good ticks : Nat) (src : Source) (mode : Mode) : State :=
  { State.reset with time := { TimeBase.reset with
      now := 7300180, mark := 730, monitor := mon, goodCount := good, absence := ticks, source := src, mode := mode,
      lastInterval := some { ticks := 999900, verdict := .good }, lastEdge := some 100 } }

theorem witness_RefEdge :
    ∀ s ∈ [monitored .absent 0 7 .internal .free, monitored .qualified 4 999899 .reference .locked,
        monitored .qualifying 2 1000101 .internal .free, monitored .qualifying 2 999900 .internal .free,
        monitored .qualifying 3 1000100 .internal .free, monitored .qualifying 3 1000100 .reference .holdover,
        monitored .qualified 4 1000100 .reference .locked, monitored .qualified 4 999900 .internal .free],
      s.report.legal ∧ s.time.legal := by decide +kernel

theorem witness_AbsenceExpiry :
    ∀ s ∈ [monitored .qualified 4 1500000 .reference .locked, monitored .qualifying 3 1500000 .internal .free],
      s.report.legal ∧ s.time.legal ∧ s.time.monitor ≠ .absent ∧ s.time.absence = 1500000 := by decide +kernel

theorem witness_SelectSource :
    ∀ s ∈ [State.reset, monitored .qualified 4 9 .reference .locked, monitored .qualified 4 9 .internal .free,
        monitored .qualifying 3 9 .reference .holdover],
      s.ready ∧ s.time.legal := by decide +kernel

/-- The part of 02 with link 2 in a state and a liveness mode. -/
def hearing (st : LinkState) (mode : Liveness) : State :=
  let s := live 36000490300
  { s with links := s.links.set 2 { s.link 2 with
      state := st, framing := if st = .down then none else some 36000000300,
      silenceExpiry := if st = .live then some 36000490300 else none,
      settings := { LinkSettings.default with liveness := mode } } }

/-- Lost in DOWN and in OFF; present in every state, due now, and a microsecond before it is due; OFF with framing; a silence
expiry due now. -/
theorem witness_Framing :
    (∀ s ∈ [hearing .down .mark, State.reset], s.report.legal ∧ (s.link 2).legal ∧ (s.link 2).framing = none) ∧
    (∀ s ∈ [hearing .live .mark, hearing .silent .mark], s.report.legal ∧ (s.link 2).legal ∧
      (s.link 2).framing = some s.now) ∧
    (let s := after (.framingGained 2) State.reset
     s.report.legal ∧ (s.link 2).legal ∧ (s.link 2).state = .off ∧ (s.link 2).framing = some (s.now + 1000)) ∧
    (live 36000000300).report.legal ∧ ((live 36000000300).link 2).legal ∧
    ((live 36000000300).link 2).silenceExpiry = some (live 36000000300).now := by decide +kernel

theorem witness_Echo :
    (∀ s ∈ [hearing .live .mark, hearing .silent .traffic], s.report.legal ∧ (s.link 2).legal ∧ (s.link 2).hears) ∧
    tooOld ((hearing .live .mark).link 2) 3600000 78 = false ∧ tooOld ((hearing .live .mark).link 2) 3600000 77 = true ∧
    tooOld ((hearing .live .mark).link 2) 3 255 = true := by decide +kernel

theorem witness_Noise :
    ∀ s ∈ [hearing .live .mark, hearing .silent .traffic], s.report.legal ∧ (s.link 2).legal ∧ (s.link 2).hears := by
  decide +kernel

/-- A hit of offset 300 against the latest mark is timed at circuit time itself, one of 301 after it; against the
mark before, one of 9,999 is timed before the mark. -/
theorem witness_ReportsDiscarded :
    let s := hearing .silent .traffic
    let k := { s.link 2 with latestHit := some 36000000000 }
    s.settled ∧ (s.link 2).legal ∧ (s.link 2).hears ∧ (s.link 0).framing = none ∧ (s.link 0).legal ∧
    (after (.framingGained 0) s).settled ∧ ((after (.framingGained 0) s).link 0).legal ∧
    ((after (.framingGained 0) s).link 0).framing ≠ none ∧ ((after (.framingGained 0) s).link 0).role = .off ∧
    tooOld (s.link 2) s.time.mark 77 = true ∧ tooOld (s.link 2) s.time.mark 128 = false ∧
    s.now < hitInstant (s.link 2) s.time.mark 128 301 ∧ hitInstant (s.link 2) s.time.mark 128 300 ≤ s.now ∧
    k.legal ∧ hitInstant k s.time.mark 127 9999 < 36000000000 := by decide +kernel

/-- What the hypotheses of HitTaken and HitsThatClose ask of a hit on link 3. -/
def hitMeets (s : State) (m o x : Nat) : Prop :=
  s.settled ∧ (s.link 3).legal ∧ (s.link 3).hears ∧ tooOld (s.link 3) s.time.mark m = false ∧
  hitInstant (s.link 3) s.time.mark m o ≤ s.now ∧
  (∀ u ∈ (s.link 3).latestHit, u ≤ hitInstant (s.link 3) s.time.mark m o) ∧ x ≤ 255

/-- Link 3 of 03 with these entries, at a time, with a close gap. -/
def gathering (es : KeyMap Entry) (now gap : Nat) : State :=
  { beforeHits with
    time := { TimeBase.reset with now := now, mark := 1000 },
    links := beforeHits.links.set 3 { beforeHits.link 3 with
      latestHit := some 9964350, passings := es,
      settings := { (beforeHits.link 3).settings with closeGap := gap, maxDwell := 100 } } }

def opened (count : Nat) : Entry :=
  .passing { first := 9864350, last := 9864350, count := count, weight := 21, moment := 0, saturated := false,
             expiry := 9924350 }

theorem witness_HitTaken :
    hitMeets beforeHits 228 4470 39 ∧ hitMeets beforeHits 228 4470 40 ∧
    hitMeets (gathering ((List.range 16).map fun n => (n + 1, opened 2)) 10000400 60) 228 4470 40 ∧
    hitMeets (gathering [(51206, opened 1)] 10000400 60) 228 4470 255 ∧
    hitMeets (gathering [(51206, opened 1)] 10000400 60) 228 4471 255 ∧
    hitMeets (gathering [(51206, .guard { lastAbsorbed := 9964350, expiry := 9964350 })] 10000400 60) 228 4470 40 := by
  unfold hitMeets
  decide +kernel

theorem witness_HitsThatClose :
    hitMeets (gathering [] 9974350 10) 228 4470 40 ∧
    hitMeets (gathering [(51206, opened 2)] 9974350 10) 228 4471 40 ∧
    hitMeets (gathering [(51206, opened 1)] 9974350 10) 228 4470 40 ∧
    (9964350 : Nat) + 10 * 1000 ≤ 9974350 ∧ (9864350 : Nat) + 100 * 1000 < 9964351 := by
  unfold hitMeets
  decide +kernel

/-- SET LOOP for link 2 as it stands in 02, with a silence timeout and a latency. -/
def setting (silence latency : Nat) : SetLoopArgs :=
  { link := 2, role := .line, linePos := 1, settings := { LinkSettings.default with silence := silence, latency := latency } }

theorem witness_SetLoopSettings :
    ∀ s ∈ [live 36000490300, { live 36000490300 with session := running .green }],
    ∀ a ∈ [setting 500 0, setting 10 0, setting 500 1],
      s.ready ∧ (s.link a.link).legal ∧ a.inRange = true ∧ a.linePos ≤ 255 ∧ (s.link a.link).role = a.role ∧
      (s.link a.link).linePos = some a.linePos := by decide +kernel

theorem witness_SetLoopMoves :
    ∀ s ∈ [field Session.reset [(1, entrant 9 8)], field (running .green) [(1, entrant 9 8)]],
    ∀ a ∈ [{ setting 500 0 with role := .off, linePos := 255 }, { setting 500 0 with linePos := 7 }],
      s.ready ∧ s.session.legal ∧ s.table.legal ∧ (s.link a.link).legal ∧ a.inRange = true ∧ a.linePos ≤ 255 ∧
      ¬((s.link a.link).role = a.role ∧ (s.link a.link).linePos = if a.role = .line then some a.linePos else none) := by
  decide +kernel

theorem witness_CircuitSettings :
    circuit.ready ∧ ({ circuit with session := running .green } : State).ready ∧
    ({ sector := 7, minimum := 600000000 } : SetSectorArgs).inRange = true ∧
    ({ inAfter := 7, outBefore := 0, length := 2000000, limit := 1000 } : PitSettings).inRange = true := by decide +kernel

theorem witness_LinksKept :
    (∀ l, (beforeFourth.link l).legal) ∧
    step { beforeFourth with pending := [.hit 3 51206 228 6870 120] } =
      .next (after (.hit 3 51206 228 6870 120) { beforeFourth with pending := [] }) :=
  ⟨by decide +kernel, step_after rfl⟩

theorem witness_LockHolds :
    ({ circuit with session := running .green } : State).session.locked = true ∧
    exec (.setSector [0, 0, 0, 0, 1]) { circuit with session := running .green } =
      .next (after (.setSector [0, 0, 0, 0, 1]) { circuit with session := running .green }) ∧
    Instr.setSector [0, 0, 0, 0, 1] ≠ .pinReset :=
  ⟨by decide +kernel, exec_after _ _, by decide⟩

theorem witness_LoopsCause :
    step { circuit with pending := [.invalidReport 2] } = .next (after (.invalidReport 2) { circuit with pending := [] }) ∧
    hasFlag (circuit.link 2).flags .corrupt = false ∧
    hasFlag ((after (.invalidReport 2) { circuit with pending := [] }).link 2).flags .corrupt = true :=
  ⟨step_after rfl, by decide +kernel, by decide +kernel⟩

/-- A session ROLLING, with its cursor. -/
def rolling : Session :=
  { Session.reset with
    phase := .rolling, setup := some raceSetup, number := 1,
    cursor := some { phase := .order, carry := { bests := true, gridFromOrder := true, keepExcluded := true },
                     newType := .race, nextGrid := 1, steps := 0, lastSlot := none } }

theorem witness_PassingCloses :
    (∀ c ∈ [1, 2], (gathering [(51206, opened c)] 10000400 60).settled ∧
      ((gathering [(51206, opened c)] 10000400 60).link 3).passings.find 51206 = some (opened c)) ∧
    (∀ p ∈ (opened 1).openPassing?, p.expiry ≤ 9924350 ∧ p.legal (some 9864350)) ∧
    (let s := gathering [(51206, .guard { lastAbsorbed := 9864350, expiry := 10000400 })] 10000400 60
     s.settled ∧ (s.link 3).passings.find 51206 = some (.guard { lastAbsorbed := 9864350, expiry := s.now })) ∧
    ({ gathering [(51206, opened 2)] 10000400 60 with session := rolling } : State).settled := by decide +kernel

/-- A part with `n` unknown codes, seen at 100 and later. -/
def strangers (n : Nat) : State :=
  { due circuit 3 51206 500 with table := { circuit.table with
      unknown := (List.range n).map fun i => { code := i + 1, first := 100 + i, last := 300, link := 3, sightings := 255 } } }

/-- The passing that `due` places. -/
def passing (t : Nat) : OpenPassing :=
  { first := t, last := t, count := 2, weight := 2, moment := 0, saturated := false, expiry := t + 60000 }

theorem witness_UnknownSeen :
    (∀ s ∈ [strangers 0, strangers 15, strangers 16], s.settled ∧ s.table.unknownLegal ∧
      PassingDue s 3 51206 (passing 500) ∧ s.session.phase ≠ .rolling ∧ s.table.index.find 51206 = none) ∧
    (let s := due (strangers 16) 3 16 500
     s.settled ∧ s.table.unknownLegal ∧ PassingDue s 3 16 (passing 500) ∧ s.table.index.find 16 = none) := by
  unfold PassingDue
  decide +kernel

theorem witness_SightingOnly :
    let s := due (field Session.reset [(1, runner 9 8)]) 3 9 500
    let u := due (field (running .green) [(1, { runner 9 8 with state := .finished })]) 3 9 500
    (∀ x ∈ [s, u], x.settled ∧ x.table.legal ∧ PassingDue x 3 9 (passing 500) ∧ x.session.phase ≠ .rolling ∧
      x.table.index.find 9 = some 1) ∧
    s.session.phase = .idle ∧ (u.record? 1).map (·.state) = some .finished := by
  unfold PassingDue
  decide +kernel

/-! ### Competitors -/

def joining : EnrolArgs := { code := 16777214, car := 999, cls := 15, grid := some 128 }

theorem witness_Enrol :
    (∀ s ∈ [field Session.reset [(1, entrant 16777214 8)], field Session.reset [(1, entrant 9 999)],
        { field Session.reset [(1, entrant 9 8)] with table := { (field Session.reset [(1, entrant 9 8)]).table with
            slotLimit := 1 } },
        field Session.reset [(1, entrant 9 8), (3, entrant 10 7)]],
      s.ready ∧ s.table.legal ∧ s.session.phase ≠ .rolling) ∧
    joining.inRange = true := by decide +kernel

theorem witness_Amend :
    let s := field Session.reset [(1, entrant 9 8), (3, entrant 10 7)]
    s.ready ∧ s.table.legal ∧ s.table.unknownLegal ∧ s.session.phase ≠ .rolling ∧ s.record? 128 = none ∧
    (∀ a ∈ ([{ slot := 128, code := none, car := some 1, cls := none, grid := .keep },
        { slot := 1, code := some 10, car := none, cls := none, grid := .remove },
        { slot := 1, code := none, car := some 7, cls := none, grid := .keep },
        { slot := 1, code := some 16777214, car := some 8, cls := some 15, grid := .give 128 }] : List AmendArgs),
      a.inRange = true) := by decide +kernel

/-- A record of each state that a record can be in. -/
def inState : RecState → Record
  | .enrolled => entrant 9 8
  | .running => runner 9 8
  | .pit => { runner 9 8 with state := .pit, pit := some { entry := some 900000, exit := none, transit := none, speed := none,
                                                           speeding := false, isOpen := true } }
  | .finished => { runner 9 8 with state := .finished }
  | .retired => { runner 9 8 with state := .retired, retiredFrom := some .running }
  | .excluded => { runner 9 8 with state := .excluded }

/-- A session CHEQUERED, with its close timeout. -/
def chequered : Session := { running .chequered with closeExpiry := some 900000000 }

theorem witness_RecordStates :
    ∀ st ∈ RecState.all, ∀ c ∈ [Session.reset, chequered, running .green], ∀ n ∈ [1, 128],
      let s := field c [(n, inState st)]
      s.ready ∧ s.table.legal ∧ (s.record? n).all (fun r => decide r.legal) = true ∧ s.session.phase ≠ .rolling ∧
      (s.record? n).map (·.state) = some st := by decide +kernel

theorem witness_AdjustAndRead :
    let s := field (running .green) [(1, { runner 9 8 with laps := 65535, netAdjust := -255, penalty := 4294967295 })]
    s.ready ∧ s.table.legal ∧ s.session.phase ≠ .rolling ∧ (s.record? 1).isSome = true ∧ s.record? 128 = none ∧
    ({ slot := 1, laps := 255, penalty := 4294967295 } : AdjustArgs).inRange = true ∧
    ({ slot := 128, laps := -255, penalty := 0 } : AdjustArgs).inRange = true ∧
    [RecordName.slot 1, .code 9, .car 8, .slot 128, .code 10, .car 9].all (·.inRange) = true := by decide +kernel

theorem witness_CapacityAndDismiss :
    (∀ s ∈ [field Session.reset [(128, entrant 9 8)], field Session.reset [(127, entrant 9 8)]],
      s.ready ∧ s.table.legal ∧ s.session.phase ≠ .rolling ∧ s.table.slotLimit = 128) ∧
    (strangers 16).ready ∧ ({ code := some 16, clearFull := true } : DismissArgs).code.all codeOk = true ∧
    ({ code := none, clearFull := false } : DismissArgs).code.all codeOk = true := by decide +kernel

theorem witness_TableKept :
    (strangers 15).table.legal ∧ (strangers 15).table.unknownLegal ∧
    step { strangers 15 with pending := [.closeExpiry 3 51206] } =
      .next (after (.closeExpiry 3 51206) { strangers 15 with pending := [] }) ∧
    (field Session.reset [(1, entrant 9 8)]).table.legal ∧
    step { field Session.reset [(1, entrant 9 8)] with pending := [.release [1]] } =
      .next (after (.release [1]) { field Session.reset [(1, entrant 9 8)] with pending := [] }) :=
  ⟨by decide +kernel, by decide +kernel, step_after rfl, by decide +kernel, step_after rfl⟩

theorem witness_ChangedSlots :
    let s := field (running .green) [(1, runner 9 8)]
    exec (.retire [1]) s = .next (after (.retire [1]) s) ∧ Instr.retire [1] ≠ .pinReset ∧
    (∀ a, Instr.retire [1] ≠ .resetTables a) ∧ (after (.retire [1]) s).record? 1 ≠ s.record? 1 :=
  ⟨exec_after _ _, by decide, nofun, by decide +kernel⟩

/-! ### Scoring, the pit lane and the order -/

/-- A part with one record in slot 1, in GREEN, and its passing of a link at a time due to close. -/
def crossing (r : Record) (l : LinkNo) (t : Nat) : State := due (field (running .green) [(1, r)]) l r.code t

/-- Seen again at position 1 just within the echo guard, and at its end, which is too soon for a lap; at position 2 just
sooner than sector 1 allows. -/
theorem witness_PassingRejected :
    let r := { runner 9 8 with position := some 1 }
    (LinePassing (crossing (runner 9 8) 2 10999999) 2 9 1 (passing 10999999) r 1 1 ∧
      isEcho (crossing (runner 9 8) 2 10999999) r 1 1 (passing 10999999).time) ∧
    (LinePassing (crossing (runner 9 8) 2 11000000) 2 9 1 (passing 11000000) r 1 1 ∧
      ¬ isEcho (crossing (runner 9 8) 2 11000000) r 1 1 (passing 11000000).time ∧
      isTooSoon (crossing (runner 9 8) 2 11000000) r 1 1 (passing 11000000).time) ∧
    (LinePassing (crossing (runner 9 8) 4 30999999) 4 9 1 (passing 30999999) r 2 1 ∧
      isTooSoon (crossing (runner 9 8) 4 30999999) r 1 2 (passing 30999999).time) := by
  unfold LinePassing PassingOf PassingDue isEcho isTooSoon
  decide +kernel

theorem witness_FirstLinePassing :
    (∀ q ∈ ([(3, 0), (4, 2)] : List (LinkNo × Nat)),
      PassingOf (crossing (entrant 9 8) q.1 500) q.1 9 1 (passing 500) (entrant 9 8) ∧
      ((crossing (entrant 9 8) q.1 500).link q.1).role = .line ∧
      ((crossing (entrant 9 8) q.1 500).link q.1).linePos = some q.2) ∧
    PassingOf (crossing { runner 9 8 with lastPos := none, started := true } 3 500) 3 9 1 (passing 500)
      { runner 9 8 with lastPos := none, started := true, position := some 1 } := by
  unfold PassingOf PassingDue
  decide +kernel

/-- A record with a lap in progress and a best lap, seen last at a position at 1,000,000. -/
def lapping (q : Nat) (best : List (Option Nat)) : Record :=
  { runner 9 8 with
    lastPos := some q, lapStart := some 400000, started := true, laps := 5, position := some 1,
    bestLap := some { time := 85910000, number := 1, setTime := 1, sectors := best } }

/-- One sector, with a delta to form, with a best lap that lacks a sector, and without a lap start; two sectors. -/
theorem witness_SectorPassing :
    ∀ r ∈ [lapping 1 [some 24980000, some 35110000, some 25820000], lapping 1 [none, some 1, some 1], lapping 0 [none, none, none],
        { runner 9 8 with position := some 1 }],
      LinePassing (crossing r 4 61000000) 4 9 1 (passing 61000000) r 2 (r.lastPos.getD 9) ∧
      ¬ isEcho (crossing r 4 61000000) r (r.lastPos.getD 9) 2 (passing 61000000).time ∧
      ¬ isTooSoon (crossing r 4 61000000) r (r.lastPos.getD 9) 2 (passing 61000000).time ∧
      r.lastPos.getD 9 + stepCount 3 (r.lastPos.getD 9) 2 < 3 ∧ (crossing r 4 61000000).lineCount = 3 := by
  unfold LinePassing PassingOf PassingDue isEcho isTooSoon
  decide +kernel

/-- No completion of this record is made in a session that is CHEQUERED, or brings the chequer. -/
theorem no_chequer {s : State} {n : Nat} {r : Record} (h1 : s.session.phase ≠ .chequered)
    (h2 : ∀ x ∈ s.session.setup, x.lapLimit = 0 ∨ r.laps < x.lapLimit)
    (h3 : s.session.finishPending = false ∨ ∃ m o, m ≠ n ∧ s.record? m = some o ∧ o.state = .running ∧ r.laps < o.laps) (e : Session) :
    ¬ s.chequeredBy n r e := by
  rintro (⟨h, -⟩ | ⟨-, -, ⟨x, hx, h, h'⟩, -⟩ | ⟨-, -, -, h, hl, -⟩)
  · exact h1 h
  · rcases h2 x hx with h4 | h4
    · exact h h4
    · omega
  · rcases h3 with h4 | ⟨m, o, hm, ho, hs, h4⟩
    · simp [h4] at h
    · rcases hl m o hm ho (.inl hs) with h5 | ⟨h5, -⟩ <;> omega

/-- Alone on the circuit, a record leads. -/
theorem leads_alone {s : State} {n : Nat} (h : ∀ p ∈ s.table.records, p.1 = n) (r : Record) : Leads s n r := by
  intro m o hm ho
  exact absurd (all_records (P := fun k _ => k = n) h m o ho) hm

/-- A lap with the line seen, and one with the line unseen, from position 2; FINISH_PENDING with another car ahead. -/
theorem witness_LapCompletes :
    let r := lapping 2 [none, none, none]
    (∀ q ∈ ([(3, 0), (2, 1)] : List (LinkNo × Nat)),
      let s := crossing r q.1 61000000
      LinePassing s q.1 9 1 (passing 61000000) r q.2 2 ∧ ¬ isEcho s r 2 q.2 (passing 61000000).time ∧
      ¬ isTooSoon s r 2 q.2 (passing 61000000).time ∧ s.lineCount ≤ 2 + stepCount s.lineCount 2 q.2) ∧
    (∀ e, ¬ (crossing r 3 61000000).chequeredBy 1 { r with laps := 6 } e) ∧
    ∀ e, ¬ (due (field { running .green with finishPending := true } [(1, r), (2, { runner 7 6 with laps := 9 })]) 3 9
      61000000).chequeredBy 1 { r with laps := 6 } e := by
  refine ⟨?_, no_chequer (by decide +kernel) (by decide +kernel) (.inl (by decide +kernel)),
    no_chequer (by decide +kernel) (by decide +kernel) (.inr ⟨2, { runner 7 6 with laps := 9, position := some 1 }, by decide,
      by decide +kernel, by decide +kernel, by decide +kernel⟩)⟩
  unfold LinePassing PassingOf PassingDue isEcho isTooSoon
  decide +kernel

/-- The three sessions in which the next completion of a record with 5 laps ends in the chequer, and what each becomes. -/
def ends : List Session :=
  [chequered, { running .green with setup := some { raceSetup with lapLimit := 6 } },
   { running .green with finishPending := true }]

/-- Each of them is the chequer of a record that comes to 6 laps alone on the circuit. -/
theorem ends_chequer {s : State} {r : Record} (hr : ∀ p ∈ s.table.records, p.1 = 1) (hs : s.session ∈ ends)
    (h6 : r.laps = 6) : ∃ e, s.chequeredBy 1 r e := by
  have hc : s.session = chequered ∨ s.session = { running .green with setup := some { raceSetup with lapLimit := 6 } } ∨
      s.session = { running .green with finishPending := true } := by simpa [ends] using hs
  rcases hc with h | h | h
  · exact ⟨_, .inl ⟨by rw [h]; rfl, rfl⟩⟩
  · exact ⟨_, .inr (.inl ⟨by rw [h]; decide, by rw [h]; decide +kernel, by rw [h, h6]; decide +kernel, rfl⟩)⟩
  · exact ⟨_, .inr (.inr ⟨by rw [h]; decide, by rw [h]; decide +kernel, by rw [h, h6]; decide +kernel, by rw [h],
      leads_alone hr r, rfl⟩)⟩

/-- The end of a lap in each of them; and at none of them. -/
theorem witness_LapAtChequer :
    let r := { lapping 2 [none, none, none] with penalty := 5000000 }
    (∀ c ∈ running .green :: ends,
      let s := due (field c [(1, r)]) 3 9 61000000
      LinePassing s 3 9 1 (passing 61000000) r 0 2 ∧ ¬ isEcho s r 2 0 (passing 61000000).time ∧
      ¬ isTooSoon s r 2 0 (passing 61000000).time ∧ s.lineCount ≤ 2 + stepCount s.lineCount 2 0) ∧
    (∀ c ∈ ends, ∃ e, (due (field c [(1, r)]) 3 9 61000000).chequeredBy 1
      { r with laps := 6, started := true, lastPos := some 0, latest := some 61000000 } e) ∧
    ∀ e, ¬ (due (field (running .green) [(1, r)]) 3 9 61000000).chequeredBy 1
      { r with laps := 6, started := true, lastPos := some 0, latest := some 61000000 } e := by
  refine ⟨?_, fun c hc => ends_chequer (by simp [due, field]) hc rfl,
    no_chequer (by decide +kernel) (by decide +kernel) (.inl (by decide +kernel))⟩
  unfold LinePassing PassingOf PassingDue isEcho isTooSoon
  decide +kernel

/-- Pit positions after which position 0 is bypassed (2, 1), and after which it is not (1, 2). -/
def pitAt (i o : Nat) : PitSettings := { inAfter := i, outBefore := o, length := 410000, limit := 6000 }

/-- A part with one record in slot 1, its passing of a link due to close, and these pit positions. -/
def pitCrossing (c : Session) (a : PitSettings) (r : Record) (l : LinkNo) (t : Nat) : State :=
  let s := due (field c [(1, r)]) l 9 t
  { s with circuit := { s.circuit with pit := some a } }

/-- What the statements of the pit lane ask of a passing of a link, of a role, at 61,000,000. -/
def pitMeets (c : Session) (a : PitSettings) (r : Record) (l : LinkNo) (role : Role) : Prop :=
  let s := pitCrossing c a r l 61000000
  PassingOf s l 9 1 (passing 61000000) r ∧ (s.link l).role = role ∧ s.circuit.pit = some a ∧ a.inAfter < s.lineCount ∧
  a.outBefore < s.lineCount ∧ r.sized s.lineCount ∧ ∀ q ∈ r.lastPos, q < s.lineCount

/-- Each kind of record a pit-in passing can meet: in PIT, out of order, not seen on the line, at pit_in_after, before it,
and beyond it, where a lap completes in each session. -/
theorem witness_PitEntry :
    (∀ r ∈ [entrant 9 8, { inState .pit with position := some 1 }, { runner 9 8 with position := some 1, latest := some 61000001 },
        { runner 9 8 with position := some 1, lastPos := some 2 }, { runner 9 8 with position := some 1, lastPos := some 1 },
        { runner 9 8 with position := some 1, lastPos := some 0 }],
      pitMeets (running .green) (pitAt 2 1) r 5 .pitIn) ∧
    (∀ c ∈ running .green :: ends, pitMeets c (pitAt 1 2) (lapping 2 [none, none, none]) 5 .pitIn) ∧
    (∀ c ∈ ends, ∃ e, (pitCrossing c (pitAt 1 2) (lapping 2 [none, none, none]) 5 61000000).chequeredBy 1
      { lapping 1 [none, none, none] with laps := 6, latest := some 61000000 } e) ∧
    ∀ e, ¬ (pitCrossing (running .green) (pitAt 1 2) (lapping 2 [none, none, none]) 5 61000000).chequeredBy 1
      { lapping 1 [none, none, none] with laps := 6, latest := some 61000000 } e := by
  refine ⟨?_, ?_, fun c hc => ends_chequer (by simp [pitCrossing, due, field]) hc rfl,
    no_chequer (by decide +kernel) (by decide +kernel) (.inl (by decide +kernel))⟩
  all_goals unfold pitMeets PassingOf PassingDue; decide +kernel

/-- A pit record with an entry and an exit. -/
def stop (entry exit : Option Nat) : PitRecord :=
  { entry := entry, exit := exit, transit := none, speed := none, speeding := false, isOpen := decide (exit = none) }

/-- A record in PIT, seen last on the line at a position, its lap in progress. -/
def stopped (q : Option Nat) (entry : Option Nat) : Record :=
  { lapping 2 [none, none, none] with state := .pit, pit := some (stop entry none), lastPos := q, lapFlags := addLap 0 .pit }

/-- Each kind of record a pit-out passing can meet: with the echo guard just not over, an entry at the exit time itself,
no entry time; with no lap to complete, and with one in each session. -/
theorem witness_PitExit :
    (∀ r ∈ [entrant 9 8, { runner 9 8 with position := some 1, latest := some 61000001 },
        { runner 9 8 with position := some 1, pit := some (stop (some 900000) (some 51000001)) },
        stopped none (some 61000000), stopped (some 1) none],
      pitMeets (running .green) (pitAt 2 1) r 6 .pitOut) ∧
    pitMeets (running .green) (pitAt 1 2) (stopped (some 1) (some 900000)) 6 .pitOut ∧
    (∀ c ∈ running .green :: ends, pitMeets c (pitAt 2 1) (stopped (some 2) (some 900000)) 6 .pitOut) ∧
    (stopped (some 2) (some 900000)).lapsAtRejoin (pitAt 2 1) ∧
    (∀ c ∈ ends, ∃ e, (pitCrossing c (pitAt 2 1) (stopped (some 2) (some 900000)) 6 61000000).chequeredBy 1
      { stopped (some 0) none with laps := 6, latest := some 61000000 } e) ∧
    ∀ e, ¬ (pitCrossing (running .green) (pitAt 2 1) (stopped (some 2) (some 900000)) 6 61000000).chequeredBy 1
      { stopped (some 0) none with laps := 6, latest := some 61000000 } e := by
  refine ⟨?_, ?_, ?_, by decide +kernel, fun c hc => ends_chequer (by simp [pitCrossing, due, field]) hc rfl,
    no_chequer (by decide +kernel) (by decide +kernel) (.inl (by decide +kernel))⟩
  all_goals unfold pitMeets PassingOf PassingDue; decide +kernel

/-- Each repair: a RUNNING record whose echo guard is just over, before and beyond pit_in_after, the latter in each session;
a record in PIT seen at the bypassed position 0, at the rejoin position within the echo guard and after it, before its
latest scored time, and sooner than its sectors allow; an inferred exit that completes a lap in each session. -/
theorem witness_PitRepairs :
    (∀ r ∈ [{ runner 9 8 with position := some 1, pit := some (stop (some 900000) (some 51000000)) }, lapping 0 [none, none, none]],
      pitMeets (running .green) (pitAt 2 1) r 6 .pitOut ∧
      (∀ y ∈ r.pit, ∀ u ∈ y.exit, ¬ ((61000000 : Nat) : Int) - (u : Int) < (10000000 : Int))) ∧
    (∀ c ∈ running .green :: ends, pitMeets c (pitAt 1 2) (lapping 2 [none, none, none]) 6 .pitOut) ∧
    (∀ r ∈ [stopped (some 2) none, stopped none none, { stopped (some 2) none with latest := some 61000001 },
        { stopped (some 2) none with lastTime := some 41000001 },
        { stopped (some 0) none with lastTime := some 60999999, latest := some 60999999 }],
      pitMeets (running .green) (pitAt 2 1) r 3 .line) ∧
    (∀ r ∈ [{ stopped (some 1) none with latest := some 51000001 }, { stopped (some 1) none with latest := some 51000000 }],
      pitMeets (running .green) (pitAt 1 2) r 2 .line) ∧
    (∀ c ∈ running .green :: ends, pitMeets c (pitAt 2 1) (stopped (some 2) none) 2 .line) ∧
    (pitCrossing (running .green) (pitAt 2 1) (stopped (some 2) none) 3 61000000).bypassed (pitAt 2 1) = 1 ∧
    (2 + 1 + 0) % 3 = 0 ∧ (pitCrossing (running .green) (pitAt 1 2) (stopped (some 1) none) 2 61000000).bypassed (pitAt 1 2) = 0 ∧
    (pitCrossing (running .green) (pitAt 1 2) (stopped (some 1) none) 2 61000000).rejoinAt (pitAt 1 2) = 1 ∧
    (∀ c ∈ ends, ∃ e, (pitCrossing c (pitAt 2 1) (stopped (some 2) none) 2 61000000).chequeredBy 1
      { stopped (some 0) none with laps := 6 } e) ∧
    (∀ c ∈ ends, ∃ e, (pitCrossing c (pitAt 1 2) (lapping 2 [none, none, none]) 6 61000000).chequeredBy 1
      { lapping 1 [none, none, none] with laps := 6, latest := some 61000000 } e) ∧
    ∀ e, ¬ (pitCrossing (running .green) (pitAt 2 1) (stopped (some 2) none) 2 61000000).chequeredBy 1
      { stopped (some 0) none with laps := 6 } e := by
  refine ⟨?_, ?_, ?_, ?_, ?_, by decide +kernel, by decide, by decide +kernel, by decide +kernel,
    fun c hc => ends_chequer (by simp [pitCrossing, due, field]) hc rfl,
    fun c hc => ends_chequer (by simp [pitCrossing, due, field]) hc rfl,
    no_chequer (by decide +kernel) (by decide +kernel) (.inl (by decide +kernel))⟩
  all_goals unfold pitMeets PassingOf PassingDue; decide +kernel

/-- An empty entry, an entry with a lower index, with the same at both orders of time, and with a higher one. -/
theorem witness_LeadTable :
    let o : OrderBlock := { list := [], lead := [(3, { index := 131, time := 100 })], highest := some 131 }
    o.lead.wf ∧ o.lead.find (4 % 128) = none ∧ o.lead.find (259 % 128) = some { index := 131, time := 100 } ∧
    o.lead.find (131 % 128) = some { index := 131, time := 100 } ∧
    o.lead.find (3 % 128) = some { index := 131, time := 100 } := by decide +kernel

theorem witness_OrderSorted :
    closed37.table.records.wf ∧ closed37.order.list = orderOf closed37.keyType closed37.table.records := by decide +kernel

theorem witness_OrderKept :
    closed37.orderAgrees ∧ step { closed37 with pending := [.rollover [1, 7]] } =
      .next (after (.rollover [1, 7]) { closed37 with pending := [] }) :=
  ⟨by decide +kernel, step_after rfl⟩

/-! ### Sessions -/

/-- The part IDLE with a setup, and an entrant of the session. -/
def grid (c : SessionSetup) : State := field { Session.reset with setup := some c } [(1, entrant 9 8)]

/-- A setup without limits, QUALIFYING: not consistent with ARM. -/
def untimed : SessionSetup := { raceSetup with type := .qualifying, timeLimit := 0 }

theorem witness_SetupAndArm :
    (∀ s ∈ [grid raceSetup, grid untimed, field (running .armed) [(1, entrant 9 8)]],
      s.ready ∧ s.table.legal ∧ (∀ l, (s.link l).legal) ∧ s.session.phase ≠ .rolling) ∧
    raceSetup.inRange = true ∧ ({ raceSetup with type := .practice } : SessionSetup).inRange = true := by decide +kernel

/-- ARM's four conditions hold together of `grid raceSetup`, so the session is taken. -/
theorem witness_SetupAndArm_taken :
    (∃ c ∈ (grid raceSetup).session.setup, c.type = .race ∨ c.lapLimit = 0 ∧ c.timeLimit ≠ 0) ∧
    ((∃ l, ((grid raceSetup).link l).role = .line) ∧ ∀ p, p < (grid raceSetup).lineCount →
      ∃ l, ((grid raceSetup).link l).linePos = some p ∧ ∀ j, ((grid raceSetup).link j).linePos = some p → j = l) ∧
    (∃ c ∈ (grid raceSetup).circuit.pit, c.inAfter < (grid raceSetup).lineCount ∧ c.outBefore < (grid raceSetup).lineCount) ∧
    ∀ n r, (grid raceSetup).record? n = some r → r.session = (grid raceSetup).session.number :=
  ⟨by decide +kernel, by decide +kernel, by decide +kernel, all_records (by decide +kernel)⟩

/-- A part that is building a reply. -/
def building (s : State) : State := { s with report := { s.report with buffer := .pending, reply := some (Reply.mk none .ok false false []) } }

/-- ARMED with a limit and without, and another state, between replies and while one is built; START while ROLLING. -/
theorem witness_Green :
    (∀ c ∈ [{ running .armed with greenTime := none },
        { running .armed with greenTime := none, setup := some { raceSetup with timeLimit := 0 } }, running .green],
      (field c []).ready ∧ (building (field c [])).settled ∧ c.legal ∧ c.phase ≠ .rolling) ∧
    (field rolling []).settled ∧ (field rolling []).session.legal := by decide +kernel

theorem witness_CautionAndSuspend :
    ∀ c ∈ [running .green, running .caution, Session.reset],
      (field c [(1, runner 9 8)]).ready ∧ (field c [(1, runner 9 8)]).table.legal ∧ c.phase ≠ .rolling := by decide +kernel

/-- A session SUSPENDED since 60,000,000. -/
def suspended (c : SessionSetup) : Session :=
  { running .suspended with setup := some c, resumeState := some .caution, suspension := some { start := 60000000, stop := none } }

/-- RESUME: no time limit, FINISH_PENDING, and a limit ahead; a limit that was over before the suspension began, of each
type, so that the expiry set has already been reached; another state. -/
theorem witness_Resume :
    let spent := fun (c : SessionSetup) => { suspended c with suspension := some { start := 3650000000, stop := none } }
    (∀ c ∈ [suspended { raceSetup with timeLimit := 0 }, { suspended raceSetup with finishPending := true },
        suspended raceSetup, spent raceSetup, spent { raceSetup with type := .practice }, running .green],
      let s := { field c [(1, runner 9 8)] with time := { TimeBase.reset with now := 3660000000 } }
      s.ready ∧ s.table.legal ∧ s.session.legal ∧ s.session.phase ≠ .rolling) ∧
    50000000 + raceSetup.timeLimit * 60000000 + ((spent raceSetup).unsuspend 3660000000 .caution).totalSuspended ≤ 3660000000 := by
  decide +kernel

theorem witness_ChequerAndClose :
    ∀ c ∈ [running .green, suspended raceSetup, running .armed, Session.reset, chequered, { green08 with timeLimitExpiry := some 900000000 },
        { green08 with timeLimitExpiry := some 900000000, setup := some { raceSetup with type := .qualifying } }],
      let s := { field c [(1, runner 9 8)] with time := { TimeBase.reset with now := 900000000 } }
      s.ready ∧ (building s).settled ∧ s.table.legal ∧ s.session.legal ∧ s.session.phase ≠ .rolling := by decide +kernel

/-- CLOSED, with records due and without; INCOMPLETE with the next number carried; ROLLING. -/
theorem witness_Rollover :
    (∀ s ∈ [closed37, field { running .closed with locked := false } [],
        field { Session.reset with number := 255, incomplete := true } [(1, entrant 9 8)], field rolling [(1, entrant 9 8)]],
      s.ready ∧ s.table.legal) ∧
    (255 + 1) % 256 = (entrant 9 8).session := by decide +kernel

/-- The cursor of `rolling`, and one in the phase of the slots. -/
def cursorIn (ph : RollPhase) : Cursor :=
  { phase := ph, carry := { bests := false, gridFromOrder := true, keepExcluded := true }, newType := .race, nextGrid := 128,
    steps := 127, lastSlot := some 1 }

/-- A record first in the order, an EXCLUDED one due by slot, and none due. -/
theorem witness_RolloverStep :
    ∀ ph ∈ [RollPhase.order, .slots], ∀ rs ∈ [[(1, runner 9 8), (2, entrant 7 6)], [(1, { entrant 9 8 with state := .excluded })],
        [(1, { entrant 9 8 with session := 1 })]],
      let s := field { rolling with cursor := some (cursorIn ph) } rs
      s.settled ∧ s.table.legal ∧ s.session.phase = .rolling ∧ s.session.cursor = some (cursorIn ph) := by decide +kernel

theorem witness_SessionKept :
    let s := field (running .green) [(1, runner 9 8)]
    s.session.legal ∧ (∀ q ∈ s.table.records, q.2.legal) ∧
    step { s with pending := [.suspend []] } = .next (after (.suspend []) { s with pending := [] }) :=
  ⟨by decide +kernel, by decide +kernel, step_after rfl⟩

/-! ### Requests -/

theorem witness_Reads :
    closed37.ready ∧ (strangers 16).ready ∧ closed37.session.phase ≠ .rolling ∧
    ({ first := 1, count := 1 } : ReadOrderArgs).inRange = true ∧
    ({ first := 128, count := 32 } : ReadOrderArgs).inRange = true := by decide +kernel

theorem witness_Attention :
    attention.ready ∧ ({ attention with report := { attention.report with moderation := 0 } } : State).ready ∧
    ({ attention with report := { attention.report with
        latch := false, moderation := 100, moderationExpiry := some attention.now } } : State).ready ∧
    (building { attention with report := { attention.report with
        latch := false, moderationExpiry := some attention.now } }).settled := by decide +kernel

/-- An empty port, one that is building a reply, and one with a reply unread. -/
theorem witness_Replies :
    circuit.report.legal ∧ (after (.arm []) circuit).report.legal ∧ (after (.arm []) circuit).report.buffer = .pending ∧
    (after .replyCompletion (after (.arm []) circuit)).report.legal ∧
    (after .replyCompletion (after (.arm []) circuit)).report.buffer = .ready ∧
    (List.replicate 32 (0 : Byte)).length ≤ 32 := by decide +kernel

/-- Slot 129 and SET MODERATION 101 are out of range, slot 128 is not. -/
theorem witness_Refused :
    (circuit.ready ∧ (field rolling []).ready ∧ circuit.record? 128 = none ∧ SpellsSlot [0x80#8] 128) ∧
    Admits .retire [0x80#8] ∧ ¬ Admits .retire [0x81#8] ∧ ¬ Admits .setModeration [0x65#8] := by
  refine ⟨by decide +kernel, ⟨128, by decide⟩, ?_, ?_⟩
  · rintro ⟨n, -, h, e⟩
    have := congrArg BitVec.toNat (List.cons.inj e).1
    simp [inByte] at this
    omega
  · rintro ⟨n, h, e⟩
    have := congrArg BitVec.toNat (List.cons.inj e).1
    simp [inByte] at this
    omega

theorem witness_ResetTables : closed37.report.buffer ≠ .pending := by decide +kernel

theorem witness_ReportingKept :
    attention.report.legal ∧ step { attention with pending := [.acknowledge []] } =
      .next (after (.acknowledge []) { attention with pending := [] }) :=
  ⟨by decide +kernel, step_after rfl⟩

end Sys2Proof.Tests
end

section
/-! The events that touch neither the records, nor the order, nor the session: what they tell the reporting unit,
what a read and a request that changes the time base leave, and the table of SELECT SOURCE (R12). -/

namespace Sys2Proof.Machine

/-! ## Requests that leave the race alone -/

/-- The end of an event that left the changed-slot set, the latch and the timer to the reporting unit: RECORDS stays
as the legal unit before had it, and the latch follows (R161, R163). -/
theorem State.settleAttention_reports {s u : State} {raised : List Cause} (hl : s.report.legal)
    (hr : .records ∉ raised) (hchanged : u.report.changed = s.report.changed) (hcauses : RaisesOnly s u raised)
    (hlatch : u.report.latch = s.report.latch) (ht : KeepsTimer s u) : Reports s u.settleAttention raised := by
  obtain ⟨causes, latch, he, hsettled, hfollows⟩ := u.report.settle_eq
  obtain ⟨hrecords, -⟩ := hl
  unfold Reports RaisesOnly LatchFollows KeepsTimer State.settleAttention
  simp only [he]
  refine ⟨hchanged, fun c => ?_, ?_, ht⟩
  · rw [hsettled]
    split
    · subst_vars
      rw [hchanged, decide_eq_false hr, Bool.or_false, Bool.eq_iff_iff, hrecords]
      simp
    · exact hcauses c
  · rw [hfollows, hlatch]

/-- The attention latch is no part of the port: a reply loaded before it is settled stays as it is. -/
theorem Answers.settleAttention {s t : State} {k : RequestKind} {args : List Byte} {w : Result} {b : List Byte}
    (h : Answers s t k args w b) : Answers s t.settleAttention k args w b := by
  obtain ⟨causes, latch, he, -⟩ := t.report.settle_eq
  unfold Answers State.settleAttention at *
  simp only [he]
  exact h

/-- What `OnlyReply` says of the blocks, without the time base and the reporting unit. -/
theorem OnlyReply.blocks {s t : State} (h : OnlyReply s t) :
    t.links = s.links ∧ t.circuit = s.circuit ∧ KeepsRace s t ∧ KeepsQueue s t := by
  obtain ⟨⟨-, hlinks, hcircuit⟩, hrace, hqueue, -⟩ := h
  exact ⟨hlinks, hcircuit, hrace, hqueue⟩

section Requests

variable {s : State} {k : RequestKind} {args : List Byte} {serve : State → Served} {b : List Byte}

/-- A request that is answered OK and changes no block leaves everything but the port's reply as it was. -/
theorem State.takeRequest_read (hr : s.ready) (ha : args.length ≤ 32)
    (h : serve (s.shiftZeros (args.length + 3)) = accept (s.shiftZeros (args.length + 3)) b) :
    Answers s (s.takeRequest k args serve) k args .ok b ∧ OnlyReply s (s.takeRequest k args serve) := by
  rw [State.takeRequest_unchanged hr.1 hr.2 ha h]
  exact s.loadReply_answers k args .ok b

/-- A request that writes the time base and raises TIME changes nothing else but the reply and the latch. -/
theorem State.takeRequest_retimed (hr : s.ready) (ha : args.length ≤ 32) {c : TimeBase}
    (h : serve (s.shiftZeros (args.length + 3)) =
      accept (((s.shiftZeros (args.length + 3)).setTime c).raise .time) b) :
    Answers s (s.takeRequest k args serve) k args .ok b ∧ (s.takeRequest k args serve).time = c ∧
    (s.takeRequest k args serve).links = s.links ∧ (s.takeRequest k args serve).circuit = s.circuit ∧
    KeepsRace s (s.takeRequest k args serve) ∧ KeepsQueue s (s.takeRequest k args serve) ∧
    Reports s (s.takeRequest k args serve) [.time] := by
  obtain ⟨⟨hagree, hlegal⟩, hbuffer⟩ := hr
  have ht : s.takeRequest k args serve =
      ((((s.shiftZeros (args.length + 3)).setTime c).raise .time).loadReply (some k) .ok b).settleAttention := by
    rw [State.takeRequest_taken hbuffer ha, h]
    exact closeEvent_quiet hagree rfl
  rw [ht]
  refine ⟨Answers.settleAttention ⟨rfl, rfl, rfl, rfl, rfl⟩, rfl, rfl, rfl, ⟨rfl, rfl, rfl⟩, ⟨rfl, rfl⟩, ?_⟩
  refine State.settleAttention_reports hlegal (by decide) rfl (fun x => ?_) rfl ⟨rfl, rfl⟩
  exact (hasCause_addCause s.report.causes .time x).trans (by simp [eq_comm])

end Requests

/-! ## SELECT SOURCE (R12) -/

theorem parseSource_singleton (b : Byte) :
    parseSource [b] = if b = 0x00#8 then some .internal else if b = 0x01#8 then some .reference else none := by
  have hp : parseSource [b] = Source.all[b.toNat]? := by simp [parseSource, takeFields, beNat]
  rw [hp]
  split
  · subst b
    rfl
  · split
    · subst b
      rfl
    · have : Source.all.length ≤ b.toNat := by
        change 2 ≤ b.toNat
        bv_omega
      exact List.getElem?_eq_none this

/-- What SELECT SOURCE answers once its frame is taken: the server inside `execSelectSource`. -/
def selectSourceServer (b : Byte) (s : State) : Served := withArgs (parseSource [b]) s (serveSelectSource s)

theorem exec_selectSource (b : Byte) (s : State) :
    exec (.selectSource [b]) s = .next (s.takeRequest .selectSource [b] (selectSourceServer b)) := rfl

theorem raiseTime_of_mode {s : State} {c : TimeBase} (h : c.mode ≠ s.time.mode) :
    raiseTime s (s.setTime c) = (s.setTime c).raise .time :=
  if_neg fun e => h e.2

theorem TimeBase.goFree_eq (c : TimeBase) :
    c.goFree = { c with source := .internal, mode := .free, trim := 0, trimCount := 0 } := rfl

theorem TimeBase.goLocked_eq {c : TimeBase} {i : Interval} (h : c.lastInterval = some i) :
    c.goLocked =
      { c with source := .reference, mode := .locked, trim := 1000000 - (i.ticks : Int), trimCount := 0 } := by
  simp [TimeBase.goLocked, TimeBase.setTrim, trimOf, h]

/-- A legal part with a QUALIFIED monitor is FREE or LOCKED, never in HOLDOVER. -/
theorem TimeBase.legal.locked_of_qualified {c : TimeBase} (h : c.legal) (hq : c.monitor = .qualified)
    (hf : c.mode ≠ .free) : c.mode = .locked := by
  obtain ⟨-, -, -, -, hfree, hlock, -⟩ := h
  cases hs : c.source with
  | internal => exact absurd (hfree.1 hs) hf
  | reference => exact (hlock hs).2 hq

/-- The rows of R12's table: INTERNAL in FREE and out of it; REFERENCE with a monitor that is not QUALIFIED, and with
one that is, in FREE and in LOCKED; any other value. -/
theorem selectSourceServer_cases {s : State} (h : s.time.legal) (b : Byte) :
    (b = 0x00#8 ∧ s.time.mode = .free ∧ selectSourceServer b s = accept s []) ∨
    (b = 0x00#8 ∧ s.time.mode ≠ .free ∧
      selectSourceServer b s = accept ((s.setTime s.time.goFree).raise .time) []) ∨
    (b = 0x01#8 ∧ s.time.monitor ≠ .qualified ∧ selectSourceServer b s = refuse s .notQualified) ∨
    (b = 0x01#8 ∧ s.time.monitor = .qualified ∧ s.time.mode = .free ∧
      selectSourceServer b s = accept ((s.setTime s.time.goLocked).raise .time) []) ∨
    (b = 0x01#8 ∧ s.time.monitor = .qualified ∧ s.time.mode = .locked ∧ selectSourceServer b s = accept s []) ∨
    (b ≠ 0x00#8 ∧ b ≠ 0x01#8 ∧ selectSourceServer b s = refuse s .badArgument) := by
  unfold selectSourceServer
  rw [parseSource_singleton]
  by_cases h0 : b = 0x00#8
  · subst b
    by_cases hf : s.time.mode = .free
    · exact .inl ⟨rfl, hf, if_pos hf⟩
    · refine .inr (.inl ⟨rfl, hf, (if_neg hf).trans ?_⟩)
      rw [raiseTime_of_mode (Ne.symm hf)]
  by_cases h1 : b = 0x01#8
  · subst b
    by_cases hq : s.time.monitor = .qualified
    · by_cases hf : s.time.mode = .free
      · have hraise : raiseTime s (s.setTime s.time.goLocked) = (s.setTime s.time.goLocked).raise .time :=
          raiseTime_of_mode fun e => nomatch e.trans hf
        exact .inr (.inr (.inr (.inl ⟨rfl, hq, hf, by simp [withArgs, serveSelectSource, hq, hf, hraise]⟩)))
      · exact .inr (.inr (.inr (.inr (.inl
          ⟨rfl, hq, h.locked_of_qualified hq hf, by simp [withArgs, serveSelectSource, hq, hf]⟩))))
    · exact .inr (.inr (.inl ⟨rfl, hq, if_pos hq⟩))
  · exact .inr (.inr (.inr (.inr (.inr ⟨h0, h1, by rw [if_neg h0, if_neg h1]; rfl⟩))))

/-- Settles O13: each row of R12's table is a read, a refusal, or a write of the time base that raises TIME. -/
theorem selectSource : Obligations.SelectSource := by
  intro s b hr ht
  rw [exec_selectSource]
  refine ⟨_, rfl, ?_⟩
  have hlen : [b].length ≤ 32 := by simp
  rcases selectSourceServer_cases (s := s.shiftZeros ([b].length + 3)) ht b with
    ⟨rfl, hf, h⟩ | ⟨rfl, hf, h⟩ | ⟨rfl, hq, h⟩ | ⟨rfl, hq, hf, h⟩ | ⟨rfl, hq, hl, h⟩ | ⟨h0, h1, h⟩
  · obtain ⟨ha, ho⟩ := State.takeRequest_read (k := .selectSource) hr hlen h
    obtain ⟨hlinks, hcircuit, hrace, hqueue⟩ := ho.blocks
    exact ⟨hlinks, hcircuit, hrace, hqueue, fun _ => ⟨ha, fun _ => ho, fun hn => absurd hf hn⟩, by simp⟩
  · obtain ⟨ha, htime, hlinks, hcircuit, hrace, hqueue, hreports⟩ :=
      State.takeRequest_retimed (k := .selectSource) hr hlen h
    rw [TimeBase.goFree_eq] at htime
    exact ⟨hlinks, hcircuit, hrace, hqueue, fun _ => ⟨ha, fun hn => absurd hn hf, fun _ => ⟨htime, hreports⟩⟩, by simp⟩
  · obtain ⟨ha, ho⟩ := State.takeRequest_refused (k := .selectSource) hr.1 hr.2 hlen h
    obtain ⟨hlinks, hcircuit, hrace, hqueue⟩ := ho.blocks
    exact ⟨hlinks, hcircuit, hrace, hqueue, by simp, fun _ hn => absurd hn hq, fun _ _ => ⟨ha, ho⟩, by simp⟩
  · obtain ⟨ha, htime, hlinks, hcircuit, hrace, hqueue, hreports⟩ :=
      State.takeRequest_retimed (k := .selectSource) hr hlen h
    refine ⟨hlinks, hcircuit, hrace, hqueue, by simp, fun _ _ => ⟨ha, fun hl => ?_, fun _ i hi => ?_⟩, ?_, by simp⟩
    · exact nomatch hf.symm.trans hl
    · exact ⟨htime.trans (TimeBase.goLocked_eq hi), hreports⟩
    · exact fun _ hn => absurd hq hn
  · obtain ⟨ha, ho⟩ := State.takeRequest_read (k := .selectSource) hr hlen h
    obtain ⟨hlinks, hcircuit, hrace, hqueue⟩ := ho.blocks
    refine ⟨hlinks, hcircuit, hrace, hqueue, by simp, fun _ _ => ⟨ha, fun _ => ho, fun hf => ?_⟩, ?_, by simp⟩
    · exact nomatch hl.symm.trans hf
    · exact fun _ hn => absurd hq hn
  · obtain ⟨ha, ho⟩ := State.takeRequest_refused (k := .selectSource) hr.1 hr.2 hlen h
    obtain ⟨hlinks, hcircuit, hrace, hqueue⟩ := ho.blocks
    exact ⟨hlinks, hcircuit, hrace, hqueue, fun e => absurd e h0, fun e => absurd e h1, fun e => absurd e h1,
      fun _ _ => ⟨ha, ho⟩⟩

end Sys2Proof.Machine
end

section
/-! The bodies of READ TIME, READ LOOP, READ UNKNOWN, READ SESSION and READ ORDER byte by byte (R13, R34, R77, R128,
R145, R169, R171), and the five requests that read them. -/

namespace Sys2Proof.Machine

/-! ## Numbers and masks in bytes (R169) -/

@[simp] theorem beBytes_one (n : Nat) : beBytes 1 n = [BitVec.ofNat 8 n] := rfl

theorem beBytes_zero (w : Nat) : beBytes w 0 = List.replicate w 0x00#8 := by
  induction w with
  | zero => rfl
  | succ w ih => rw [beBytes, Nat.zero_div, ih, List.replicate_succ']

theorem sum_mapIdx_pow (bs : List Bool) (k : Nat) :
    (bs.mapIdx fun i b => if b then 2 ^ (i + k) else 0).sum = 2 ^ k * maskNat bs := by
  induction bs generalizing k with
  | nil => rfl
  | cons b bs ih =>
    have hrest := ih (k + 1)
    simp only [List.mapIdx_cons, List.sum_cons, maskNat, Nat.zero_add, Nat.add_assoc, Nat.add_comm 1 k, hrest]
    cases b <;> simp <;> ring

@[simp] theorem maskNat_eq_maskOf (bs : List Bool) : maskNat bs = maskOf bs := by
  simpa [maskOf] using (sum_mapIdx_pow bs 0).symm

@[simp] theorem byte_of_signed (z : Int) : BitVec.ofNat 8 (unsignedOf 1 z) = BitVec.ofInt 8 z := by
  apply BitVec.eq_of_toNat_eq
  simp only [unsignedOf, BitVec.toNat_ofNat, BitVec.toNat_ofInt]
  omega

/-! ## Codes in a byte of their own (R169)

Each function lists the bytes of the values as the tables of state list them; its lemma ties it to the model's
`codeIn`. -/

def sourceByte : Source → Byte
  | .internal => 0x00#8 | .reference => 0x01#8

@[simp] theorem byte_source (x : Source) : BitVec.ofNat 8 (codeIn Source.all x) = sourceByte x := by cases x <;> rfl

def modeByte : Mode → Byte
  | .free => 0x00#8 | .locked => 0x01#8 | .holdover => 0x02#8

@[simp] theorem byte_mode (x : Mode) : BitVec.ofNat 8 (codeIn Mode.all x) = modeByte x := by cases x <;> rfl

def monitorByte : Monitor → Byte
  | .absent => 0x00#8 | .qualifying => 0x01#8 | .qualified => 0x02#8

@[simp] theorem byte_monitor (x : Monitor) : BitVec.ofNat 8 (codeIn Monitor.all x) = monitorByte x := by cases x <;> rfl

def verdictByte : Verdict → Byte
  | .good => 0x00#8 | .bad => 0x01#8

@[simp] theorem byte_verdict (x : Verdict) : BitVec.ofNat 8 (codeIn Verdict.all x) = verdictByte x := by cases x <;> rfl

@[simp] theorem byte_role (x : Role) : BitVec.ofNat 8 (codeIn Role.all x) = roleByte x := by cases x <;> rfl

def livenessByte : Liveness → Byte
  | .mark => 0x00#8 | .traffic => 0x01#8

@[simp] theorem byte_liveness (x : Liveness) : BitVec.ofNat 8 (codeIn Liveness.all x) = livenessByte x := by
  cases x <;> rfl

def linkStateByte : LinkState → Byte
  | .off => 0x00#8 | .down => 0x01#8 | .silent => 0x02#8 | .live => 0x03#8

@[simp] theorem byte_linkState (x : LinkState) : BitVec.ofNat 8 (codeIn LinkState.all x) = linkStateByte x := by
  cases x <;> rfl

@[simp] theorem byte_framing (k : Link) :
    BitVec.ofNat 8 (framingCode k.framed) = if k.framing = none then 0x01#8 else 0x00#8 := by
  unfold Link.framed
  cases k.framing <;> rfl

@[simp] theorem byte_flag (b : Bool) : BitVec.ofNat 8 (flagCode b) = setOrClear b := by cases b <;> rfl

@[simp] theorem byte_phase (x : Phase) : BitVec.ofNat 8 (codeIn Phase.all x) = phaseByte x := by cases x <;> rfl

@[simp] theorem byte_type (x : SessionType) : BitVec.ofNat 8 (codeIn SessionType.all x) = typeByte x := by
  cases x <;> rfl

@[simp] theorem byte_lock (b : Bool) : BitVec.ofNat 8 (lockCode b) = if b then 0x00#8 else 0x01#8 := by cases b <;> rfl

def deltaByte : DeltaDirection → Byte
  | .off => 0x00#8 | .toAhead => 0x01#8 | .toBehind => 0x02#8 | .both => 0x03#8

@[simp] theorem byte_delta (x : DeltaDirection) : BitVec.ofNat 8 (codeIn DeltaDirection.all x) = deltaByte x := by
  cases x <;> rfl

def greenByte : GreenSource → Byte
  | .start => 0x00#8 | .request => 0x01#8

@[simp] theorem byte_green (x : GreenSource) : BitVec.ofNat 8 (codeIn GreenSource.all x) = greenByte x := by
  cases x <;> rfl

def rollByte : RollPhase → Byte
  | .order => 0x00#8 | .slots => 0x01#8

@[simp] theorem byte_roll (x : RollPhase) : BitVec.ofNat 8 (codeIn RollPhase.all x) = rollByte x := by cases x <;> rfl

@[simp] theorem byte_recState (x : RecState) : BitVec.ofNat 8 x.code = recStateByte x := by cases x <;> rfl

/-! ## Items of a body (R169) -/

section Items

variable (rest : List Item)

@[simp] theorem presence_num (w n : Nat) : presence (num w n :: rest) = presence rest := rfl
@[simp] theorem presence_flag (b : Bool) : presence (flag b :: rest) = presence rest := rfl
@[simp] theorem presence_signedNum (w : Nat) (z : Int) : presence (signedNum w z :: rest) = presence rest := rfl
@[simp] theorem presence_answerOf (b : Bool) : presence (answerOf b :: rest) = presence rest := rfl
@[simp] theorem presence_optNum (w : Nat) (o : Option Nat) :
    presence (optNum w o :: rest) = o.isSome :: presence rest := by
  cases o <;> rfl

@[simp] theorem itemBytes_num (w n : Nat) : itemBytes (num w n :: rest) = beBytes w n ++ itemBytes rest := rfl
@[simp] theorem itemBytes_flag (b : Bool) : itemBytes (flag b :: rest) = [setOrClear b] ++ itemBytes rest := by
  rw [← byte_flag]
  rfl
@[simp] theorem itemBytes_signedNum (z : Int) :
    itemBytes (signedNum 1 z :: rest) = [BitVec.ofInt 8 z] ++ itemBytes rest := by
  rw [← byte_of_signed]
  rfl
@[simp] theorem itemBytes_answerOf (b : Bool) :
    itemBytes (answerOf b :: rest) = [Config.answerByte b] ++ itemBytes rest := rfl
@[simp] theorem itemBytes_optNum (w : Nat) (o : Option Nat) :
    itemBytes (optNum w o :: rest) = beBytes w (o.getD 0) ++ itemBytes rest := by
  cases o with
  | none => rw [Option.getD_none, beBytes_zero]; rfl
  | some n => rfl

@[simp] theorem presence_append (xs ys : List Item) : presence (xs ++ ys) = presence xs ++ presence ys := by
  induction xs with
  | nil => rfl
  | cons x xs ih => cases x <;> simp [presence, ih]

@[simp] theorem itemBytes_append (xs ys : List Item) : itemBytes (xs ++ ys) = itemBytes xs ++ itemBytes ys := by
  induction xs with
  | nil => rfl
  | cons x xs ih => cases x <;> simp [itemBytes, ih]

end Items

/-! ## READ TIME (R13) -/

/-- The last interval with its verdict, zero bytes without one. -/
def intervalBytes : Option Interval → List Byte
  | some i => beBytes 4 i.ticks ++ [verdictByte i.verdict]
  | none => List.replicate 5 0x00#8

theorem intervalItem_eq (o : Option Interval) :
    optBytes 5 o (fun i => beBytes 4 i.ticks ++ beBytes 1 (codeIn Verdict.all i.verdict)) =
      .maybe o.isSome (intervalBytes o) := by
  cases o <;> simp [optBytes, intervalBytes]

theorem timeBody_spelled (c : TimeBase) :
    timeBody c =
      [BitVec.ofNat 8 ((if c.lastInterval = none then 0 else 1) + if c.lastEdge = none then 0 else 2)] ++
      beBytes 6 c.now ++ beBytes 4 c.mark ++ [setOrClear c.markLimit] ++
      [sourceByte c.source, modeByte c.mode, monitorByte c.monitor] ++
      beBytes 1 c.goodCount ++ [BitVec.ofInt 8 c.trim] ++
      intervalBytes c.lastInterval ++ beBytes 6 (c.lastEdge.getD 0) := by
  have hmask : maskOf [c.lastInterval.isSome, c.lastEdge.isSome] =
      (if c.lastInterval = none then 0 else 1) + if c.lastEdge = none then 0 else 2 := by
    cases c.lastInterval <;> cases c.lastEdge <;> rfl
  rw [timeBody, intervalItem_eq, ← hmask]
  simp [bodyOf, presence, itemBytes]

/-! ## READ UNKNOWN (R77) -/

theorem unknownBytes_spelled (e : UnknownEntry) :
    unknownBytes e = beBytes 3 e.code ++ beBytes 6 e.first ++ beBytes 6 e.last ++
      [BitVec.ofNat 8 e.link.val, BitVec.ofNat 8 e.sightings] := by
  simp [unknownBytes]

theorem unknownBody_spelled (t : CompetitorTable) :
    unknownBody t =
      [BitVec.ofNat 8 t.unknown.length, if t.unknownFull then 0x01#8 else 0x00#8] ++
      t.unknown.flatMap fun e =>
        beBytes 3 e.code ++ beBytes 6 e.first ++ beBytes 6 e.last ++
          [BitVec.ofNat 8 e.link.val, BitVec.ofNat 8 e.sightings] := by
  rw [unknownBody, funext unknownBytes_spelled]
  cases t.unknownFull <;> rfl

/-! ## READ LOOP (R34) -/

theorem presence_linkItems (k : Link) :
    presence (linkItems k) = [k.linePos.isSome, k.silenceExpiry.isSome, k.outage.isSome, k.outage.any (·.stop.isSome),
      k.latestHit.isSome, k.noise.isSome] := by
  simp [linkItems, presence, Option.isSome_bind]

/-- The line positions the links hold, from link 0 (R15). -/
def State.places (s : State) : List (Option Nat) := (List.finRange 8).map fun j => (s.link j).held

theorem State.linkList_places {α : Type} (s : State) (f : Option Nat → α) :
    (s.linkList.map fun p => f p.2.held) = s.places.map f := rfl

@[simp] theorem presence_map_optNum (w : Nat) (os : List (Option Nat)) :
    presence (os.map (optNum w)) = os.map (·.isSome) := by
  induction os with
  | nil => rfl
  | cons o os ih => rw [List.map_cons, presence_optNum, ih, List.map_cons]

@[simp] theorem itemBytes_map_optNum_one (os : List (Option Nat)) :
    itemBytes (os.map (optNum 1)) = os.map fun o => BitVec.ofNat 8 (o.getD 0) := by
  induction os with
  | nil => rfl
  | cons o os ih => rw [List.map_cons, itemBytes_optNum, ih, List.map_cons, beBytes_one, List.singleton_append]

@[simp] theorem presence_map_num (w : Nat) (ns : List Nat) : presence (ns.map (num w)) = [] := by
  induction ns with
  | nil => rfl
  | cons n ns ih => rw [List.map_cons, presence_num, ih]

@[simp] theorem itemBytes_map_num (w : Nat) (ns : List Nat) : itemBytes (ns.map (num w)) = ns.flatMap (beBytes w) := by
  induction ns with
  | nil => rfl
  | cons n ns ih => rw [List.map_cons, itemBytes_num, ih, List.flatMap_cons]

/-- The pit settings, zero bytes without any. -/
def pitBlock : Option PitSettings → List Byte
  | some p => [BitVec.ofNat 8 p.inAfter, BitVec.ofNat 8 p.outBefore] ++ beBytes 4 p.length ++ beBytes 2 p.limit
  | none => List.replicate 8 0x00#8

theorem pitItem_eq (o : Option PitSettings) : optBytes 8 o pitBytes = .maybe o.isSome (pitBlock o) := by
  cases o <;> rfl

theorem presence_circuitItems (s : State) :
    presence (circuitItems s) = s.places.map (·.isSome) ++ [s.circuit.pit.isSome] := by
  rw [circuitItems, s.linkList_places (optNum 1), pitItem_eq]
  simp [presence]

theorem itemBytes_circuitItems (s : State) :
    itemBytes (circuitItems s) =
      s.places.map (fun o => BitVec.ofNat 8 (o.getD 0)) ++
      [BitVec.ofNat 8 s.lineCount, Config.answerByte s.lineMapValid, Config.answerByte s.pitValid] ++
      s.circuit.sectorMin.toList.flatMap (beBytes 4) ++ pitBlock s.circuit.pit := by
  rw [circuitItems, s.linkList_places (optNum 1), pitItem_eq]
  simp [itemBytes]

theorem loopBody_spelled (s : State) (l : LinkNo) :
    loopBody s l =
      let k := s.link l
      let c := k.settings
      beBytes 2 (maskOf ([k.linePos.isSome, k.silenceExpiry.isSome, k.outage.isSome, k.outage.any (·.stop.isSome),
        k.latestHit.isSome, k.noise.isSome] ++ s.places.map (·.isSome) ++ [s.circuit.pit.isSome])) ++
      [roleByte k.role, BitVec.ofNat 8 (k.linePos.getD 0)] ++ beBytes 2 c.latency ++
      [BitVec.ofNat 8 c.threshold, BitVec.ofNat 8 c.saturation, BitVec.ofNat 8 c.closeGap] ++ beBytes 2 c.maxDwell ++
      [BitVec.ofNat 8 c.minHits, BitVec.ofNat 8 c.maxAge] ++ beBytes 2 c.silence ++
      [livenessByte c.liveness, if k.framing = none then 0x01#8 else 0x00#8, linkStateByte k.state] ++
      beBytes 6 (k.silenceExpiry.getD 0) ++ beBytes 6 ((k.outage.map (·.start)).getD 0) ++
      beBytes 6 ((k.outage.bind (·.stop)).getD 0) ++ beBytes 6 (k.latestHit.getD 0) ++
      [BitVec.ofNat 8 (k.noise.getD 0)] ++ beBytes 2 k.flags.toNat ++
      s.places.map (fun o => BitVec.ofNat 8 (o.getD 0)) ++
      [BitVec.ofNat 8 s.lineCount, Config.answerByte s.lineMapValid, Config.answerByte s.pitValid] ++
      s.circuit.sectorMin.toList.flatMap (beBytes 4) ++ pitBlock s.circuit.pit := by
  have hplaces : s.places.length = 8 := by simp [State.places]
  rw [loopBody, bodyOf, presence_append, presence_linkItems, presence_circuitItems, itemBytes_append,
    itemBytes_circuitItems]
  simp [linkItems, itemBytes, hplaces]

/-! ## READ SESSION (R145) -/

/-- The setup, zero bytes before the first. -/
def setupBlock : Option SessionSetup → List Byte
  | some u =>
    [typeByte u.type] ++ beBytes 2 u.lapLimit ++ beBytes 2 u.timeLimit ++
      [BitVec.ofNat 8 u.closeTimeout, BitVec.ofNat 8 u.echoGuard, deltaByte u.delta]
  | none => List.replicate 8 0x00#8

theorem setupItem_eq (o : Option SessionSetup) : optBytes 8 o SessionSetup.bytes = .maybe o.isSome (setupBlock o) := by
  cases o <;> simp [optBytes, setupBlock, SessionSetup.bytes, putFields]

theorem CarrySet.code_eq_maskOf (c : CarrySet) : c.code = maskOf [c.bests, c.gridFromOrder, c.keepExcluded] := by
  obtain ⟨bests, grid, keep⟩ := c
  cases bests <;> cases grid <;> cases keep <;> rfl

/-- The cursor but for its last slot, zero bytes without one. -/
def cursorBlock : Option Cursor → List Byte
  | some k =>
    [rollByte k.phase, BitVec.ofNat 8 (maskOf [k.carry.bests, k.carry.gridFromOrder, k.carry.keepExcluded]),
     typeByte k.newType, BitVec.ofNat 8 k.nextGrid, BitVec.ofNat 8 k.steps]
  | none => List.replicate 5 0x00#8

theorem cursorItem_eq (o : Option Cursor) : optBytes 5 o cursorBytes = .maybe o.isSome (cursorBlock o) := by
  cases o <;> simp [optBytes, cursorBlock, cursorBytes, CarrySet.code_eq_maskOf]

/-- The green time with its source, zero bytes unless both are there (R145, log 10). -/
def greenBlock (c : Session) : List Byte :=
  match c.greenTime, c.greenSource with
  | some t, some g => beBytes 6 t ++ [greenByte g]
  | _, _ => List.replicate 7 0x00#8

theorem greenItem_eq (c : Session) :
    greenItem c = .maybe (decide (c.greenTime ≠ none ∧ c.greenSource ≠ none)) (greenBlock c) := by
  unfold greenItem greenBlock
  cases c.greenTime <;> cases c.greenSource <;> simp

/-- The resume state, a zero byte without one. -/
def resumeByte : Option Phase → Byte
  | some x => phaseByte x
  | none => 0x00#8

@[simp] theorem byte_resume (o : Option Phase) : BitVec.ofNat 8 ((o.map (codeIn Phase.all)).getD 0) = resumeByte o := by
  cases o with
  | none => rfl
  | some x => exact byte_phase x

/-- The cause of the chequer, a zero byte without one, as REQUEST has. -/
def chequerByte : Option ChequerCause → Byte
  | some .request | none => 0x00#8
  | some .timeLimit => 0x01#8
  | some .leader => 0x02#8
  | some .lapLimit => 0x03#8

@[simp] theorem byte_chequer (o : Option ChequerCause) :
    BitVec.ofNat 8 ((o.map (codeIn ChequerCause.all)).getD 0) = chequerByte o := by
  cases o with
  | none => rfl
  | some x => cases x <;> rfl

theorem sessionBody_spelled (s : State) :
    sessionBody s =
      let c := s.session
      beBytes 2 (maskOf [c.setup.isSome, decide (c.greenTime ≠ none ∧ c.greenSource ≠ none), c.suspension.isSome,
        c.suspension.any (·.stop.isSome), c.resumeState.isSome, c.timeLimitExpiry.isSome, c.chequerTime.isSome,
        c.chequerCause.isSome, c.chequerSlot.isSome, c.closeExpiry.isSome, c.cursor.isSome,
        c.cursor.any (·.lastSlot.isSome)]) ++
      beBytes 6 s.now ++
      [phaseByte c.phase, setOrClear c.incomplete, setOrClear c.finishPending, if c.locked then 0x00#8 else 0x01#8,
       BitVec.ofNat 8 c.number] ++
      setupBlock c.setup ++ greenBlock c ++ beBytes 6 c.totalSuspended ++
      beBytes 6 ((c.suspension.map (·.start)).getD 0) ++ beBytes 6 ((c.suspension.bind (·.stop)).getD 0) ++
      [resumeByte c.resumeState] ++ beBytes 6 (c.timeLimitExpiry.getD 0) ++ beBytes 6 (c.chequerTime.getD 0) ++
      [chequerByte c.chequerCause, BitVec.ofNat 8 (c.chequerSlot.getD 0)] ++ beBytes 6 (c.closeExpiry.getD 0) ++
      [BitVec.ofNat 8 (s.countIn .running), BitVec.ofNat 8 (s.countIn .pit)] ++
      cursorBlock c.cursor ++
      [BitVec.ofNat 8 ((c.cursor.bind (·.lastSlot)).getD 0)] := by
  rw [sessionBody, greenItem_eq, setupItem_eq, cursorItem_eq]
  simp [bodyOf, presence, itemBytes, Option.isSome_bind]

/-! ## READ ORDER (R128, R171) -/

theorem gapMask_eq_maskOf (g : Option Gap) :
    (if g.isSome then 1 else 0) + 2 * gapForm g = maskOf [g.isSome, decide ((gapEntry g).1 = 1)] := by
  rcases g with _ | ⟨_⟩ | ⟨_⟩ <;> rfl

theorem gapValue_eq (g : Option Gap) : gapValue g = (gapEntry g).2 := by
  rcases g with _ | ⟨_⟩ | ⟨_⟩ <;> rfl

/-- The entry of a slot at a place of the order; a FREE slot has none. -/
def orderRow (place slot : Nat) : Option Record → List Byte
  | some r =>
    [BitVec.ofNat 8 place, BitVec.ofNat 8 slot] ++ beBytes 2 r.car ++ [BitVec.ofNat 8 r.cls] ++ beBytes 2 r.laps ++
      [BitVec.ofNat 8 (maskOf [r.gap.isSome, decide ((gapEntry r.gap).1 = 1)])] ++ beBytes 6 (gapEntry r.gap).2 ++
      [recStateByte r.state, 0x00#8]
  | none => []

theorem orderRun_cons (s : State) (place slot : Nat) (rest : List Nat) :
    orderRun s place (slot :: rest) = orderRow place slot (s.record? slot) ++ orderRun s (place + 1) rest := by
  rw [orderRun]
  cases s.record? slot with
  | none => rfl
  | some r => simp [orderRow, orderEntryBytes, gapMask_eq_maskOf, gapValue_eq]

theorem orderRun_eq (s : State) (place : Nat) (run : List Nat) :
    orderRun s place run = (List.range run.length).flatMap fun i =>
      orderRow (place + i) (run.getD i 0) (s.record? (run.getD i 0)) := by
  induction run generalizing place with
  | nil => rfl
  | cons slot rest ih =>
    rw [orderRun_cons, ih, List.length_cons, List.range_succ_eq_map, List.flatMap_cons, List.flatMap_map]
    simp [Nat.add_assoc, Nat.add_comm 1]

/-- The type whose key orders the list: RACE before any setup (log 26). -/
def keyTypeByte : Option SessionSetup → Byte
  | some u => typeByte u.type
  | none => 0x02#8

theorem typeByte_keyType (s : State) : typeByte s.keyType = keyTypeByte s.session.setup := by
  unfold State.keyType
  cases s.session.setup <;> rfl

theorem orderBody_spelled (s : State) (a : ReadOrderArgs) :
    orderBody s a =
      let rows := min a.count (s.order.list.length - (a.first - 1))
      [BitVec.ofNat 8 s.order.list.length, keyTypeByte s.session.setup, BitVec.ofNat 8 rows] ++
      (List.range rows).flatMap fun i =>
        let slot := s.order.list.getD (a.first - 1 + i) 0
        orderRow (a.first + i) slot (s.record? slot) := by
  have hlen : ((s.order.list.drop (a.first - 1)).take a.count).length =
      min a.count (s.order.list.length - (a.first - 1)) := by simp
  simp only [orderBody, orderRun_eq, hlen, beBytes_one, byte_type, typeByte_keyType]
  congr 1
  refine List.flatMap_congr fun i hi => ?_
  have hcount : i < a.count := lt_of_lt_of_le (List.mem_range.1 hi) (Nat.min_le_left _ _)
  simp [List.getD, hcount]

/-! ## The five reads -/

theorem parseLink_byte (l : LinkNo) : parseLink [BitVec.ofNat 8 l.val] = some l := by
  revert l
  decide

theorem ReadOrderArgs.parse_bytes {a : ReadOrderArgs} (h : a.inRange = true) :
    ReadOrderArgs.parse a.bytes = some a := by
  have hr := h
  simp only [ReadOrderArgs.inRange, within, Bool.and_eq_true, decide_eq_true_eq] at hr
  have hp : a.first % 256 = a.first := Nat.mod_eq_of_lt (by omega)
  have hn : a.count % 256 = a.count := Nat.mod_eq_of_lt (by omega)
  simp [ReadOrderArgs.parse, ReadOrderArgs.bytes, putFields, takeFields, beNat, hp, hn, checked, h]

theorem withArgs_some {α : Type} {o : Option α} {x : α} (h : o = some x) (s : State) (f : α → Served) :
    withArgs o s f = f x := by
  rw [h]
  rfl

theorem unlessRolling_of_ne {s : State} (h : s.session.phase ≠ .rolling) (f : Served) : unlessRolling s f = f :=
  if_neg h

/-- A request that is answered OK and changes no block, as the next state of its command. -/
theorem State.next_of_read {s : State} {k : RequestKind} {args : List Byte} {serve : State → Served} {b : List Byte}
    (hr : s.ready) (ha : args.length ≤ 32)
    (h : serve (s.shiftZeros (args.length + 3)) = accept (s.shiftZeros (args.length + 3)) b) :
    ∃ t, (.next (s.takeRequest k args serve) : Out) = .next t ∧ OnlyReply s t ∧ Answers s t k args .ok b := by
  obtain ⟨hanswers, honly⟩ := State.takeRequest_read (k := k) hr ha h
  exact ⟨_, rfl, honly, hanswers⟩

/-- Settles O55: each read answers its body, and the body is spelled out byte by byte above. -/
theorem reads : Obligations.Reads := by
  intro s hr
  refine ⟨?_, fun l => ?_, ?_, fun hroll => ⟨?_, fun a hin => ?_⟩⟩
  · exact State.next_of_read hr (by simp) (congrArg (accept _) (timeBody_spelled s.time))
  · exact State.next_of_read hr (by simp)
      ((withArgs_some (parseLink_byte l) _ _).trans (congrArg (accept _) (loopBody_spelled (s.shiftZeros _) l)))
  · exact State.next_of_read hr (by simp) (congrArg (accept _) (unknownBody_spelled s.table))
  · exact State.next_of_read hr (by simp)
      ((unlessRolling_of_ne (s := s.shiftZeros _) hroll _).trans
        (congrArg (accept _) (sessionBody_spelled (s.shiftZeros _))))
  · exact State.next_of_read hr (by simp [ReadOrderArgs.bytes, putFields])
      ((withArgs_some (ReadOrderArgs.parse_bytes hin) _ _).trans
        ((unlessRolling_of_ne (s := s.shiftZeros _) hroll _).trans
          (congrArg (accept _) (orderBody_spelled (s.shiftZeros _) a))))

end Sys2Proof.Machine
end

section
/-! The reports of a loop link that end at the link and the reporting unit: the flags and the LOOPS cause they leave,
the restart of the silence timer, and the reports ECHO and NOISE (R23 to R29, R32). -/

namespace Sys2Proof.Machine

/-! ## Sets of flags -/

theorem addBit_of_hasBit {n : Nat} {m : Mask n} {i : Nat} (h : hasBit m i = true) : addBit m i = m := by
  refine BitVec.eq_of_getLsbD_eq fun j _ => (hasBit_addBit m i j).trans ?_
  by_cases hij : i = j
  · subst hij
    exact Bool.or_eq_left_iff_imp.2 fun _ => h
  · simp [hij, hasBit]

theorem addFlag_of_has {m : Mask 10} {f : LoopFlag} (h : hasFlag m f = true) : addFlag m f = m := addBit_of_hasBit h

theorem addFlags_concat (m : Mask 10) (fs : List LoopFlag) (f : LoopFlag) :
    addFlags m (fs ++ [f]) = addFlag (addFlags m fs) f := List.foldl_concat ..

theorem hasFlag_addFlags (m : Mask 10) (fs : List LoopFlag) (f : LoopFlag) :
    hasFlag (addFlags m fs) f = (hasFlag m f || decide (f ∈ fs)) := by
  induction fs generalizing m with
  | nil => simp [addFlags]
  | cons g fs ih =>
    have hstep : addFlags m (g :: fs) = addFlags (addFlag m g) fs := rfl
    rw [hstep, ih, hasFlag_addFlag]
    simp [Bool.or_assoc, eq_comm]

/-- One more flag matters to LOOPS only where it is new itself (R32). -/
theorem loopsRaised_concat (k : Link) (fs : List LoopFlag) (f : LoopFlag) :
    loopsRaised k (fs ++ [f]) = if hasFlag k.flags f then loopsRaised k fs else [.loops] := by
  cases hf : hasFlag k.flags f <;> simp [loopsRaised, hf]

/-- A flag the link holds after the others is one it held before them or one of them, and says no more of LOOPS. -/
theorem loopsRaised_concat_of_has {k : Link} {fs : List LoopFlag} {f : LoopFlag}
    (h : hasFlag (addFlags k.flags fs) f = true) : loopsRaised k (fs ++ [f]) = loopsRaised k fs := by
  rw [loopsRaised_concat]
  split
  · rfl
  · rename_i hnot
    have hmem : f ∈ fs := by simpa [hasFlag_addFlags, hnot] using h
    exact (if_neg fun hall => hnot (List.all_eq_true.1 hall f hmem)).symm

/-- LOOPS raised once more is LOOPS raised once. -/
theorem addCause_loopsRaised (m : Mask 6) (k : Link) (fs : List LoopFlag) :
    addCause ((loopsRaised k fs).foldl addCause m) .loops = addCause m .loops := by
  unfold loopsRaised
  split
  · rfl
  · exact addCause_of_has (by simp [hasCause_addCause])

theorem hasCause_loopsRaised (m : Mask 6) (k : Link) (fs : List LoopFlag) (c : Cause) :
    hasCause ((loopsRaised k fs).foldl addCause m) c = (hasCause m c || decide (c ∈ loopsRaised k fs)) := by
  unfold loopsRaised
  split
  · simp
  · simp [hasCause_addCause, eq_comm]

/-! ## The part with one link changed -/

section WithLink

variable (s : State) (l : LinkNo) {k : Link} (fs : List LoopFlag)

@[simp] theorem State.withLink_time : (s.withLink l k fs).time = s.time := rfl
@[simp] theorem State.withLink_now : (s.withLink l k fs).now = s.now := rfl

@[simp] theorem State.link_withLink_self :
    (s.withLink l k fs).link l = { k with flags := addFlags (s.link l).flags fs } :=
  s.link_setLink_self l _

theorem State.link_withLink_ne {j : LinkNo} (h : j ≠ l) : (s.withLink l k fs).link j = s.link j :=
  s.link_setLink_ne l _ h

/-- A link rewritten with its flags as they were. -/
theorem State.setLink_eq_withLink (h : k.flags = (s.link l).flags) : s.setLink l k = s.withLink l k [] := by
  simp [State.withLink, State.setLink, addFlags, loopsRaised, ← h]

/-- A link rewritten as it was. -/
theorem State.withLink_link : s.withLink l (s.link l) [] = s := by
  rw [← s.setLink_eq_withLink l rfl]
  simp [State.setLink, State.link]

/-- The later of two rewrites of a link stands, where the earlier left its flags. -/
theorem State.withLink_setLink (h : k.flags = (s.link l).flags) (k' : Link) :
    (s.setLink l k).withLink l k' fs = s.withLink l k' fs := by
  have hlink : (s.setLink l k).link l = k := s.link_setLink_self l k
  simp [State.withLink, loopsRaised, hlink, h]

/-- A link rewritten once its flags are set. -/
theorem State.setLink_withLink {k' : Link} (h : k'.flags = addFlags (s.link l).flags fs) :
    (s.withLink l k fs).setLink l k' = s.withLink l k' fs := by
  simp [State.withLink, State.setLink, ← h]

/-- A flag set after others joins them; where it is new it raises LOOPS (R32). -/
theorem State.setLoopFlag_withLink (f : LoopFlag) :
    (s.withLink l k fs).setLoopFlag l f = s.withLink l k (fs ++ [f]) := by
  rcases (s.withLink l k fs).setLoopFlag_cases l f with ⟨hset, he⟩ | ⟨hnew, he⟩
  · rw [State.link_withLink_self] at hset
    rw [he, State.withLink, State.withLink, addFlags_concat, addFlag_of_has hset, loopsRaised_concat_of_has hset]
  · rw [State.link_withLink_self, hasFlag_addFlags, Bool.or_eq_false_iff] at hnew
    rw [he, State.link_withLink_self]
    simp [State.withLink, State.setLink, State.raise, addFlags_concat, loopsRaised_concat, hnew, addCause_loopsRaised]

/-- A flag that is set on a condition. -/
theorem State.setLoopFlag_withLink_if (f : LoopFlag) (p : Prop) [Decidable p] :
    (if p then (s.withLink l k fs).setLoopFlag l f else s.withLink l k fs) =
      s.withLink l k (fs ++ if p then [f] else []) := by
  split
  · exact s.setLoopFlag_withLink l fs f
  · rw [List.append_nil]

/-- An event that rewrites one link and sets flags on it, once the reporting unit is settled, is a link event and
leaves the port. -/
theorem State.withLink_linkEvent (h : s.report.legal) :
    KeepsPort s (s.withLink l k fs).settleAttention ∧ LinkEvent s (s.withLink l k fs).settleAttention l k fs := by
  have hreports : Reports s (s.withLink l k fs).settleAttention (loopsRaised (s.link l) fs) :=
    State.settleAttention_reports h (by unfold loopsRaised; split <;> simp) rfl
      (hasCause_loopsRaised s.report.causes (s.link l) fs) rfl ⟨rfl, rfl⟩
  obtain ⟨causes, latch, he, -⟩ := (s.withLink l k fs).report.settle_eq
  refine ⟨?_, rfl, fun j hj => s.link_withLink_ne l fs hj, s.link_withLink_self l fs, rfl, ⟨rfl, rfl, rfl⟩, ⟨rfl, rfl⟩,
    hreports⟩
  unfold KeepsPort
  rw [State.settleAttention_report, he]
  exact ⟨rfl, rfl, rfl, rfl, rfl⟩

end WithLink

/-! ## The restart of the silence timer (R24 to R26) -/

/-- A link whose liveness is running. -/
def Link.awake (k : Link) : Prop := k.state = .live ∨ k.state = .silent

theorem Link.legal.awake_of_hears {k : Link} (h : k.legal) (hh : k.hears) : k.awake := by
  obtain ⟨-, -, -, hoff, hdown, -⟩ := h
  obtain ⟨hframing, hrole⟩ := hh
  cases hs : k.state with
  | live => exact .inl hs
  | silent => exact .inr hs
  | down => exact absurd ((hdown hrole).2 hs) hframing
  | off => exact absurd (hoff.2 hs) hrole

@[simp] theorem Link.heard_flags (k : Link) (now : Nat) : (k.heard now).flags = k.flags := rfl
@[simp] theorem Link.afterRestart_flags (k : Link) (now : Nat) : (k.afterRestart now).flags = k.flags := rfl
@[simp] theorem Link.afterRestart_settings (k : Link) (now : Nat) : (k.afterRestart now).settings = k.settings := rfl

@[simp] theorem Link.afterValid_settings (k : Link) (now : Nat) : (k.afterValid now).settings = k.settings := by
  unfold Link.afterValid; split <;> rfl
@[simp] theorem Link.afterValid_noise (k : Link) (now : Nat) : (k.afterValid now).noise = k.noise := by
  unfold Link.afterValid; split <;> rfl

theorem closeOutage_eq_map (o : Option Period) (now : Nat) :
    closeOutage o now = o.map fun p => { p with stop := some (p.stop.getD now) } := by
  cases o with
  | none => rfl
  | some p =>
    obtain ⟨start, stop⟩ := p
    cases stop <;> rfl

/-- The flag a restart of the link sets: LINK_STATE out of SILENT (R24). -/
def Link.restartFlags (k : Link) : List LoopFlag := if k.state = .silent then [.linkState] else []

/-- A restart makes a LIVE or SILENT link LIVE with a new silence expiry, out of SILENT with its outage ended (R24 to
R26). -/
theorem State.restart_eq_withLink {s : State} {l : LinkNo} (h : (s.link l).awake) :
    s.restart l = s.withLink l ((s.link l).afterRestart s.now) (s.link l).restartFlags := by
  rcases h with hs | hs
  · have he : s.restart l = s.setLink l ((s.link l).afterRestart s.now) := by
      simp [State.restart, Link.afterRestart, silenceOf, hs]
    have hflags : (s.link l).restartFlags = [] := by simp [Link.restartFlags, hs]
    rw [he, hflags, s.setLink_eq_withLink l (Link.afterRestart_flags ..)]
  · have he : s.restart l = (s.setLink l ((s.link l).afterRestart s.now)).setLoopFlag l .linkState := by
      simp [State.restart, Link.afterRestart, silenceOf, closeOutage_eq_map, hs]
    have hflags : (s.link l).restartFlags = [.linkState] := by simp [Link.restartFlags, hs]
    rw [he, hflags, s.setLink_eq_withLink l (Link.afterRestart_flags ..), State.setLoopFlag_withLink, List.nil_append]

/-- What every valid report does first: the restart in TRAFFIC mode, nothing in MARK mode (R25, R27). -/
theorem State.trafficRestart_eq_withLink {s : State} {l : LinkNo} (h : (s.link l).awake) :
    s.trafficRestart l = s.withLink l ((s.link l).afterValid s.now) (s.link l).validFlags := by
  unfold State.trafficRestart Link.afterValid Link.validFlags
  by_cases ht : (s.link l).settings.liveness = .traffic
  · simp [ht, State.restart_eq_withLink h, Link.restartFlags]
  · simp [ht, State.withLink_link]

/-! ## A report that is received (R23, R27) -/

theorem Link.heard_eq_sawDelimiter {k : Link} (h : k.framing ≠ none) (now : Nat) :
    k.heard now = k.sawDelimiter now := by
  obtain ⟨e, he⟩ := Option.ne_none_iff_exists'.1 h
  simp [Link.heard, Link.sawDelimiter, he]

theorem State.takeReport_of_hears {s : State} {l : LinkNo} (h : (s.link l).hears) (handle : State → State) :
    s.takeReport l handle = handle (s.setLink l ((s.link l).heard s.now)) := by
  obtain ⟨hframing, hrole⟩ := h
  have hframed : (s.link l).framed = true := Option.isSome_iff_ne_none.2 hframing
  rw [Link.heard_eq_sawDelimiter hframing]
  rcases s.takeReport_cases l handle with ⟨hf, -⟩ | ⟨-, hr, -⟩ | ⟨-, -, he⟩
  · exact nomatch hf.symm.trans hframed
  · exact absurd hr hrole
  · exact he

/-- A report whose handling rewrites its link and sets flags on it is a link event: the delimiter that ends it was a
rewrite of the same link. -/
theorem State.takeReport_linkEvent {s : State} {l : LinkNo} {k : Link} {fs : List LoopFlag} {handle : State → State}
    (hl : s.report.legal) (hh : (s.link l).hears)
    (he : handle (s.setLink l ((s.link l).heard s.now)) =
      (s.setLink l ((s.link l).heard s.now)).withLink l k fs) :
    KeepsPort s (s.takeReport l fun s => (handle s).settleAttention) ∧
      LinkEvent s (s.takeReport l fun s => (handle s).settleAttention) l k fs := by
  rw [State.takeReport_of_hears hh, he, s.withLink_setLink l fs (Link.heard_flags ..)]
  exact s.withLink_linkEvent l fs hl

/-! ## ECHO (R28) -/

/-- The age of a mark number over the integers is the one over the numbers, as the number is below 256. -/
theorem markAge_eq_ageOf (count : Nat) (m : BitVec 8) : markAge count m.toNat = ageOf count m.toNat := by
  unfold markAge ageOf
  omega

theorem staleAge_eq_tooOld (k : Link) (count : Nat) (m : BitVec 8) :
    staleAge k.settings count (markAge count m.toNat) = tooOld k count m.toNat := by
  rw [markAge_eq_ageOf, staleAge, tooOld]

/-- An ECHO restarts its link in TRAFFIC mode; a stale one sets STALE, another one restarts it in MARK mode (R25,
R28). -/
theorem State.takeEcho_eq_withLink {s : State} {l : LinkNo} {k : Link} {m : BitVec 8} {stale restarts : Bool}
    (hk : s.link l = k) (h : k.awake) (hstale : tooOld k s.time.mark m.toNat = stale)
    (hrestarts : (decide (k.settings.liveness = .traffic) || !stale) = restarts) :
    s.takeEcho l m.toNat = s.withLink l (if restarts then k.afterRestart s.now else k)
      ((if restarts && decide (k.state = .silent) then [.linkState] else []) ++ if stale then [.stale] else []) := by
  subst k
  have hage : staleAge (s.link l).settings s.time.mark (markAge s.time.mark m.toNat) = stale :=
    (staleAge_eq_tooOld ..).trans hstale
  unfold State.takeEcho
  rw [State.trafficRestart_eq_withLink h]
  cases hmode : (s.link l).settings.liveness with
  | mark =>
    have hvalid : s.withLink l ((s.link l).afterValid s.now) (s.link l).validFlags = s := by
      simp [Link.afterValid, Link.validFlags, hmode, State.withLink_link]
    obtain rfl : (!stale) = restarts := by simpa [hmode] using hrestarts
    cases stale with
    | false => simp [hvalid, hage, hmode, State.restart_eq_withLink h, Link.restartFlags]
    | true =>
      have hflag : s.setLoopFlag l .stale = s.withLink l (s.link l) [.stale] := by
        simpa [s.withLink_link l] using s.setLoopFlag_withLink l (k := s.link l) [] .stale
      simp [hvalid, hage, hflag]
  | traffic =>
    have hafter : (s.link l).afterValid s.now = (s.link l).afterRestart s.now := by simp [Link.afterValid, hmode]
    obtain rfl : true = restarts := by simpa [hmode] using hrestarts
    have hflags : (s.link l).validFlags = if (s.link l).state = .silent then [.linkState] else [] := by
      simp [Link.validFlags, hmode]
    simp [hafter, hage, hmode, hflags, State.setLoopFlag_withLink_if]

/-- Settles O15: a received ECHO rewrites its link and sets flags on it. -/
theorem echo : Obligations.Echo := by
  intro s l m hl hlegal hh
  have hawake : ((s.link l).heard s.now).awake := hlegal.awake_of_hears hh
  exact ⟨_, rfl, State.takeReport_linkEvent hl hh
    (State.takeEcho_eq_withLink (s.link_setLink_self l _) hawake rfl rfl)⟩

/-! ## NOISE (R29) -/

theorem noiseChanges_eq_all (threshold : Nat) (held : Option Nat) (level : Nat) :
    noiseChanges threshold held level =
      held.all fun n => decide (threshold ≤ n) != decide (threshold ≤ level) := by
  cases held <;> rfl

/-- A NOISE is a valid report that stores its level, sets NOISY from the threshold on, and NOISE_CHANGE where the level
crosses it or is the first (R25, R29). -/
theorem State.takeNoise_eq_withLink {s : State} {l : LinkNo} {k : Link} {level : Nat} {high : Bool}
    (hk : s.link l = k) (h : k.awake) (hhigh : decide (k.settings.threshold ≤ level) = high) :
    s.takeNoise l level = s.withLink l { k.afterValid s.now with noise := some level }
      (k.validFlags ++ (if high then [.noisy] else []) ++
        if k.noise.all fun n => decide (k.settings.threshold ≤ n) != high then [.noiseChange] else []) := by
  subst k high
  unfold State.takeNoise
  rw [State.trafficRestart_eq_withLink h]
  simp only [State.link_withLink_self, Link.afterValid_settings, Link.afterValid_noise, noiseChanges_eq_all,
    decide_eq_true_eq]
  rw [State.setLink_withLink (h := rfl), State.setLoopFlag_withLink_if, State.setLoopFlag_withLink_if]
  rfl

/-- Settles O16: a received NOISE rewrites its link and sets flags on it. -/
theorem noise : Obligations.Noise := by
  intro s l v hl hlegal hh
  have hawake : ((s.link l).heard s.now).awake := hlegal.awake_of_hears hh
  exact ⟨_, rfl, State.takeReport_linkEvent hl hh (State.takeNoise_eq_withLink (s.link_setLink_self l _) hawake rfl)⟩

end Sys2Proof.Machine
end

section
/-! What an event that writes the session controller tells the reporting unit as the order list is brought to the keys
(R57, R74, R116, R120, R121, R132, R161, R163), and the two requests of a rollover (R148, R149, R153). -/

namespace Sys2Proof.Machine

/-! ## The order list brought to the keys -/

/-- Taking a place is a change of place alone (R119, R120). -/
theorem Record.takePlace_onlyPlaced (r : Record) (p : Option Nat) : OnlyPlaced r (r.takePlace p) := by
  refine ⟨?_, fun hp => ?_, fun hp => ?_⟩
  · unfold Record.takePlace
    simp only [@eq_comm _ p]
  · cases p with
    | none => exact nomatch hp
    | some n => rfl
  · obtain rfl : p = none := hp
    rfl

theorem State.reorder_everyOnlyPlaced (s : State) : EveryOnlyPlaced s s.reorder := by
  intro n
  rw [s.reorder_record n]
  cases s.record? n with
  | none => trivial
  | some r => exact r.takePlace_onlyPlaced _

/-- A slot joins the changed-slot set exactly where its record changed (R74). -/
theorem State.mem_reorder_changed {s : State} (hw : s.table.records.wf) (n : Nat) :
    n ∈ s.reorder.report.changed ↔ n ∈ s.report.changed ∨ s.reorder.record? n ≠ s.record? n := by
  refine ⟨fun hn => ?_, fun hn => hn.elim ((RaceStep.reorder s).joined n) ((RaceStep.reorder s).noted n)⟩
  obtain ⟨causes, -, he⟩ := s.reorder_eq
  rw [he, mem_foldl_joinSlot] at hn
  refine hn.imp_right fun htouched => ?_
  obtain ⟨⟨m, r⟩, hr, rfl⟩ := List.mem_map.1 htouched
  obtain ⟨hmem, hmoved⟩ := List.mem_filter.1 hr
  have hrec : s.record? m = some r := KeyMap.find_of_mem hw hmem
  rw [State.reorder_record, hrec]
  simpa using hmoved

/-- With every record at its place in the list before, ORDER is raised exactly where the list changes (R121). -/
theorem State.hasCause_reorder {s : State}
    (hplaces : ∀ p ∈ s.table.records, p.2.position = placeOf s.order.list p.1) (c : Cause) :
    hasCause s.reorder.report.causes c =
      (hasCause s.report.causes c || (decide (c = .order) && decide (s.reorder.order.list ≠ s.order.list))) := by
  by_cases hlist : orderOf s.keyType s.table.records = s.order.list
  · have hunmoved : (s.table.records.any fun p =>
        decide (p.2.position ≠ placeOf (orderOf s.keyType s.table.records) p.1)) = false :=
      List.any_eq_false.2 fun p hp => by simp [hlist, hplaces p hp]
    have hcauses : s.reorder.report.causes = s.report.causes := by
      unfold State.reorder
      simp only [State.updAll_eq, hunmoved, Bool.false_or]
      rw [if_neg (by simpa using hlist)]
    rw [hcauses, State.reorder_list]
    simp [hlist]
  · have hcauses : s.reorder.report.causes = addCause s.report.causes .order := by
      simp [State.reorder, State.updAll_eq, hlist]
    rw [hcauses, State.reorder_list, hasCause_addCause]
    simp [hlist, eq_comm]

/-- Records brought to the keys they had stay as they are, with the list (R116). -/
theorem State.reorder_race {s u : State} (hs : s.orderAgrees) (htable : u.table = s.table)
    (hlist : u.order.list = s.order.list) (htype : u.keyType = s.keyType) : u.reorder = u := by
  refine State.reorder_of_agrees ?_
  unfold State.orderAgrees
  rw [htable, hlist, htype]
  exact hs

theorem State.keyType_of_setup {s u : State} (h : u.session.setup = s.session.setup) : u.keyType = s.keyType := by
  unfold State.keyType
  rw [h]

/-! ## The end of an event -/

/-- What the end of an event writes: RECORDS follows the changed-slot set, SESSION joins where an item of READ SESSION
changed, and the latch follows (R132, R161, R163). -/
theorem closeEvent_eq (s u : State) :
    ∃ causes latch,
      closeEvent s u = { u.reorder with report := { u.reorder.report with causes := causes, latch := latch } } ∧
      (∀ c, hasCause causes c = if c = .records then !u.reorder.report.changed.isEmpty else
        hasCause u.reorder.report.causes c ||
          (decide (c = .session) && decide (u.reorder.sessionItems ≠ s.sessionItems))) ∧
      latch = if causes = 0#6 then false else if u.reorder.report.moderationExpiry = none then true
        else u.reorder.report.latch := by
  by_cases hsession : u.reorder.sessionItems = s.sessionItems
  · obtain ⟨causes, latch, he, hcauses, hlatch⟩ := u.reorder.report.settle_eq
    refine ⟨causes, latch, ?_, fun c => ?_, hlatch⟩
    · rw [closeEvent, raiseSession, if_pos hsession, State.settleAttention, he]
    · simp [hcauses, hsession]
  · obtain ⟨causes, latch, he, hcauses, hlatch⟩ := (u.reorder.raise .session).report.settle_eq
    refine ⟨causes, latch, ?_, fun c => ?_, hlatch⟩
    · rw [closeEvent, raiseSession, if_neg hsession, State.settleAttention, he]
      rfl
    · simp [hcauses, hsession, hasCause_addCause, eq_comm]

/-- The end of an event leaves the port as the event left it. -/
theorem closeEvent_keepsPort (s u : State) : KeepsPort u (closeEvent s u) := by
  obtain ⟨causes, latch, he, -⟩ := closeEvent_eq s u
  have h := RaceStep.reorder u
  rw [he]
  exact ⟨h.portPhase, h.buffer, h.reply, h.readFlag, h.sdo⟩

theorem closeEvent_keepsIndex (s u : State) : KeepsIndex u (closeEvent s u) := by
  obtain ⟨causes, latch, he, -⟩ := closeEvent_eq s u
  have h := RaceStep.reorder u
  rw [he]
  exact ⟨h.index, h.unknown, h.unknownFull, h.slotLimit⟩

theorem closeEvent_keepsLead (s u : State) : KeepsLead u (closeEvent s u) := by
  obtain ⟨causes, latch, he, -⟩ := closeEvent_eq s u
  obtain ⟨ordered, -, hr⟩ := u.reorder_eq
  rw [he, hr]
  exact ⟨rfl, rfl⟩

theorem closeEvent_everyOnlyPlaced (s u : State) : EveryOnlyPlaced u (closeEvent s u) := by
  obtain ⟨causes, latch, he, -⟩ := closeEvent_eq s u
  rw [he]
  exact u.reorder_everyOnlyPlaced

/-- An event that changed neither the records nor the list tells the reporting unit what their new order brings, and
the change of the session (R74, R121, R132, R161, R163). -/
theorem closeEvent_follows {s u : State} (hs : s.settled) (hw : s.table.records.wf) (htable : u.table = s.table)
    (hlist : u.order.list = s.order.list) (hnews : KeepsNews s u) (htimer : KeepsTimer s u) :
    Follows s (closeEvent s u) [] := by
  obtain ⟨⟨-, hplaces⟩, hrecords, -⟩ := hs
  obtain ⟨hchanged, hcauses, hlatch⟩ := hnews
  obtain ⟨hmoderation, hexpiry⟩ := htimer
  have hstep := RaceStep.reorder u
  have hrec : ∀ n, u.record? n = s.record? n := fun n => by rw [State.record?, htable, State.record?]
  have hjoined : ∀ n, n ∈ u.reorder.report.changed ↔ n ∈ s.report.changed ∨ u.reorder.record? n ≠ s.record? n :=
    fun n => by rw [State.mem_reorder_changed (by rwa [htable]), hchanged, hrec]
  have hraised : ∀ c, hasCause u.reorder.report.causes c =
      (hasCause s.report.causes c || (decide (c = .order) && decide (u.reorder.order.list ≠ s.order.list))) := by
    intro c
    rw [State.hasCause_reorder (fun p hp => by rw [hlist]; exact (hplaces p (htable ▸ hp)).1), hcauses, hlist]
  have hstays : hasCause s.report.causes .records = true → u.reorder.report.changed ≠ [] := fun h => by
    obtain ⟨n, hn⟩ := List.exists_mem_of_ne_nil _ (hrecords.1 h)
    exact List.ne_nil_of_mem ((hjoined n).2 (.inl hn))
  obtain ⟨causes, latch, he, hafter, hfollows⟩ := closeEvent_eq s u
  rw [he]
  refine ⟨hjoined, fun c => ?_, ?_, hstep.moderation.trans hmoderation, hstep.moderationExpiry.trans hexpiry⟩
  · refine (hafter c).trans ?_
    rw [hraised]
    cases c with
    | records =>
      cases hbefore : hasCause s.report.causes .records with
      | true => simpa using hstays hbefore
      | false =>
        rw [Bool.eq_iff_iff]
        simp
    | session => simp [State.sessionItems, State.countIn]
    | order => simp
    | loops | time | unknown => simp
  · unfold LatchFollows
    rw [hfollows, hstep.latch, hlatch]

/-! ## Requests that write the session controller -/

/-- A reply that is loaded is still the answer while the port stays as it is. -/
theorem Answers.of_keepsPort {s u t : State} {k : RequestKind} {args : List Byte} {w : Result} {b : List Byte}
    (h : Answers s u k args w b) (hp : KeepsPort u t) : Answers s t k args w b := by
  obtain ⟨hphase, hbuffer, hreply, hread, hsdo⟩ := hp
  unfold Answers at *
  rwa [hphase, hbuffer, hreply, hread, hsdo]

/-- The part as a request that writes the session controller and the order block leaves it before the event ends: the
frame is taken, and its reply is loaded. -/
def State.sessionWritten (s : State) (k : RequestKind) (args b : List Byte) (o : OrderBlock) (c : Session) : State :=
  State.loadReply { s.shiftZeros (args.length + 3) with order := o, session := c } (some k) .ok b

section SessionRequest

variable {s : State} {k : RequestKind} {args : List Byte} {serve : State → Served} {b : List Byte}
  {o : OrderBlock} {c : Session}

theorem State.takeRequest_sessionWritten (hr : s.ready) (ha : args.length ≤ 32)
    (h : serve (s.shiftZeros (args.length + 3)) =
      accept { s.shiftZeros (args.length + 3) with order := o, session := c } b) :
    s.takeRequest k args serve = closeEvent s (s.sessionWritten k args b o c) := by
  rw [State.takeRequest_taken hr.2 ha, h]
  rfl

/-- A request that writes the session controller, and the lead table at most of the order block, is taken. -/
theorem State.sessionWritten_takes (hr : s.ready) (hw : s.table.records.wf) (ho : o.list = s.order.list) :
    Takes s (closeEvent s (s.sessionWritten k args b o c)) k args b := by
  obtain ⟨htime, hlinks, hcircuit, -, hdraws, hpending, -⟩ := closeEvent_blocks s (s.sessionWritten k args b o c)
  have hanswers : Answers s (s.sessionWritten k args b o c) k args .ok b := ⟨rfl, rfl, rfl, rfl, rfl⟩
  exact ⟨hanswers.of_keepsPort (closeEvent_keepsPort ..), ⟨htime, hlinks, hcircuit⟩, ⟨hpending, hdraws⟩,
    closeEvent_follows hr.1 hw rfl ho ⟨rfl, rfl, rfl⟩ ⟨rfl, rfl⟩⟩

theorem State.sessionWritten_session : (closeEvent s (s.sessionWritten k args b o c)).session = c := by
  obtain ⟨-, -, -, hsession, -⟩ := closeEvent_blocks s (s.sessionWritten k args b o c)
  exact hsession

theorem State.sessionWritten_keepsIndex : KeepsIndex s (closeEvent s (s.sessionWritten k args b o c)) :=
  closeEvent_keepsIndex s (s.sessionWritten k args b o c)

theorem State.sessionWritten_everyOnlyPlaced : EveryOnlyPlaced s (closeEvent s (s.sessionWritten k args b o c)) :=
  closeEvent_everyOnlyPlaced s (s.sessionWritten k args b o c)

/-- Under the session type it had, the competitor table stays as it was, and the order block is the one written. -/
theorem State.sessionWritten_race (hr : s.ready) (ho : o.list = s.order.list) (hc : c.setup = s.session.setup) :
    (closeEvent s (s.sessionWritten k args b o c)).table = s.table ∧
    (closeEvent s (s.sessionWritten k args b o c)).order = o := by
  obtain ⟨⟨hagrees, -⟩, -⟩ := hr
  obtain ⟨-, -, -, -, -, -, htable, horder⟩ := closeEvent_blocks s (s.sessionWritten k args b o c)
  have htype : (s.sessionWritten k args b o c).keyType = s.keyType := State.keyType_of_setup hc
  rw [htable, horder, State.reorder_race (u := s.sessionWritten k args b o c) hagrees rfl ho htype]
  exact ⟨rfl, rfl⟩

end SessionRequest

/-! ## ROLLOVER (R148, R149) -/

theorem CarrySet.ofCode_code (c : CarrySet) : CarrySet.ofCode c.code = some c := by
  obtain ⟨bests, grid, keep⟩ := c
  cases bests <;> cases grid <;> cases keep <;> rfl

theorem RolloverArgs.parse_bytes (a : RolloverArgs) : RolloverArgs.parse a.bytes = some a := by
  obtain ⟨type, carry⟩ := a
  have hcode : carry.code % 256 = carry.code := by
    unfold CarrySet.code
    split <;> split <;> split <;> rfl
  have htype : SessionType.all[(typeByte type).toNat]? = some type := by cases type <;> rfl
  simp [RolloverArgs.parse, RolloverArgs.bytes, putFields, takeFields, beNat, hcode, htype,
    CarrySet.ofCode_code carry]

theorem RolloverArgs.bytes_length_le (a : RolloverArgs) : a.bytes.length ≤ 32 := by
  simp [RolloverArgs.bytes, putFields]

theorem exec_rollover (s : State) (a : RolloverArgs) :
    exec (.rollover a.bytes) s = .next (s.takeRequest .rollover a.bytes fun s => serveRollover s a) := by
  have hparsed : ∀ s, withArgs (RolloverArgs.parse a.bytes) s (serveRollover s) = serveRollover s a :=
    fun s => withArgs_some (RolloverArgs.parse_bytes a) s (serveRollover s)
  rw [← funext hparsed]
  rfl

/-- A property of some record of the table, read slot by slot. -/
theorem State.exists_record_iff {s : State} (hw : s.table.records.wf) (P : Record → Prop) :
    (∃ p ∈ s.table.records, P p.2) ↔ ∃ n r, s.record? n = some r ∧ P r :=
  ⟨fun ⟨(n, r), hmem, hr⟩ => ⟨n, r, KeyMap.find_of_mem hw hmem, hr⟩,
    fun ⟨n, r, hrec, hr⟩ => ⟨(n, r), KeyMap.find_mem hrec, hr⟩⟩

/-- A run has a record due where one carries another session number (R149). -/
theorem State.dueSlot_ne_none_iff {s : State} (hw : s.table.records.wf) :
    s.dueSlot ≠ none ↔ ∃ n r, s.record? n = some r ∧ r.session ≠ s.session.number := by
  rw [← State.exists_record_iff hw fun r => r.session ≠ s.session.number]
  simp [State.dueSlot]

theorem State.numberTaken_iff {s : State} (hw : s.table.records.wf) :
    s.numberTaken = true ↔ s.session.phase = .idle ∧ s.session.incomplete = true ∧
      ∃ n r, s.record? n = some r ∧ r.session = nextNumber s.session.number := by
  rw [← State.exists_record_iff hw fun r => r.session = nextNumber s.session.number]
  simp [State.numberTaken, and_assoc]

theorem serveRollover_wrongState {s : State} (a : RolloverArgs) (hroll : s.session.phase ≠ .rolling)
    (hi : s.session.phase ≠ .idle) (hc : s.session.phase ≠ .closed) :
    serveRollover s a = refuse s .wrongState :=
  (unlessRolling_of_ne hroll _).trans (if_neg (not_or.2 ⟨hi, hc⟩))

theorem serveRollover_of_open {s : State} (a : RolloverArgs)
    (h : s.session.phase = .idle ∨ s.session.phase = .closed) :
    serveRollover s a = if s.numberTaken then refuse s .badConfig else accept (s.goRolling a) [] := by
  have hroll : s.session.phase ≠ .rolling := by
    rcases h with h | h <;> simp [h]
  exact (unlessRolling_of_ne hroll _).trans (if_pos h)

theorem serveRollover_badConfig {s : State} (hw : s.table.records.wf) (a : RolloverArgs)
    (h : s.session.phase = .idle ∧ s.session.incomplete = true ∧
      ∃ n r, s.record? n = some r ∧ r.session = nextNumber s.session.number) :
    serveRollover s a = refuse s .badConfig := by
  have ⟨hidle, _⟩ := h
  rw [serveRollover_of_open a (.inl hidle), if_pos ((State.numberTaken_iff hw).2 h)]

/-- The session controller once ROLLOVER has been taken: a run that has no record due is over at once (R148, R149). -/
theorem State.goRolling_eq {s : State} (hw : s.table.records.wf) (a : RolloverArgs) :
    ∃ c, s.goRolling a = { s with order := s.emptyLead.order, session := c } ∧
      let due := ∃ n r, s.record? n = some r ∧ r.session ≠ nextNumber s.session.number
      (due → c = s.session.rolling a) ∧
      (¬ due → c = { s.session.rolling a with phase := .idle, cursor := none }) := by
  have hdue := State.dueSlot_ne_none_iff (s := s.emptyLead.setSession (s.session.rolling a)) hw
  by_cases hnone : (s.emptyLead.setSession (s.session.rolling a)).dueSlot = none
  · refine ⟨{ s.session.rolling a with phase := .idle, cursor := none }, ?_, fun h => ?_, fun _ => rfl⟩
    · exact if_pos (Option.isNone_iff_eq_none.2 hnone)
    · exact absurd hnone (hdue.2 h)
  · refine ⟨s.session.rolling a, ?_, fun _ => rfl, fun h => ?_⟩
    · exact if_neg fun h => hnone (Option.isNone_iff_eq_none.1 h)
    · exact absurd (hdue.1 hnone) h

theorem serveRollover_rolls {s : State} (hw : s.table.records.wf) (a : RolloverArgs)
    (hopen : s.session.phase = .idle ∨ s.session.phase = .closed)
    (hfree : ¬(s.session.phase = .idle ∧ s.session.incomplete = true ∧
      ∃ n r, s.record? n = some r ∧ r.session = nextNumber s.session.number)) :
    serveRollover s a = accept (s.goRolling a) [] := by
  rw [serveRollover_of_open a hopen, if_neg fun h => hfree ((State.numberTaken_iff hw).1 h)]

/-! ## HALT ROLLOVER (R153) -/

theorem exec_haltRollover (s : State) :
    exec (.haltRollover []) s = .next (s.takeRequest .haltRollover [] serveHaltRollover) := rfl

theorem serveHaltRollover_refused {s : State} (h : s.session.phase ≠ .rolling) :
    serveHaltRollover s = refuse s .wrongState := if_neg h

theorem serveHaltRollover_halts {s : State} (h : s.session.phase = .rolling) :
    serveHaltRollover s = accept { s with order := s.order, session := s.haltRollover.session } [] := if_pos h

/-- Settles O52: a rollover taken writes the session controller and empties the lead table before the list is brought
to the keys of the new type; HALT ROLLOVER writes the controller under the type it had. -/
theorem rollover : Obligations.Rollover := by
  intro s hr ⟨hw, _⟩
  have ⟨hsettled, hbuffer⟩ := hr
  refine ⟨fun a hroll => ⟨_, exec_rollover s a, fun hi hc => ?_, fun htaken => ?_, fun hopen hfree => ?_⟩,
    _, exec_haltRollover s, fun h => ?_, fun h => ?_⟩
  · exact State.takeRequest_refused hsettled hbuffer (RolloverArgs.bytes_length_le a)
      (serveRollover_wrongState (s := s.shiftZeros _) a hroll hi hc)
  · exact State.takeRequest_refused hsettled hbuffer (RolloverArgs.bytes_length_le a)
      (serveRollover_badConfig (s := s.shiftZeros _) hw a htaken)
  · obtain ⟨c, hgo, hdue, hover⟩ := State.goRolling_eq (s := s.shiftZeros (a.bytes.length + 3)) hw a
    have hserve := (serveRollover_rolls (s := s.shiftZeros (a.bytes.length + 3)) hw a hopen hfree).trans
      (congrArg (accept · []) hgo)
    rw [State.takeRequest_sessionWritten (serve := fun s => serveRollover s a) hr
      (RolloverArgs.bytes_length_le a) hserve]
    obtain ⟨hlead, hhighest⟩ := closeEvent_keepsLead s (s.sessionWritten .rollover a.bytes [] s.emptyLead.order c)
    refine ⟨State.sessionWritten_takes hr hw rfl, State.sessionWritten_keepsIndex,
      State.sessionWritten_everyOnlyPlaced, closeEvent_agrees .., hlead, hhighest, ?_⟩
    rw [State.sessionWritten_session]
    exact ⟨hdue, hover⟩
  · exact State.takeRequest_refused hsettled hbuffer (by simp) (serveHaltRollover_refused (s := s.shiftZeros _) h)
  · rw [State.takeRequest_sessionWritten hr (by simp) (serveHaltRollover_halts (s := s.shiftZeros _) h)]
    obtain ⟨htable, horder⟩ := State.sessionWritten_race (k := .haltRollover) (args := []) (b := [])
      (c := s.haltRollover.session) hr rfl rfl
    exact ⟨State.sessionWritten_takes hr hw rfl, htable, horder, State.sessionWritten_session⟩

end Sys2Proof.Machine
end

section
/-! Events whose own part is in the reporting unit alone: what their end makes of the causes and the latch (R161, R163),
and with it the requests of 10 on attention and moderation, and the moderation expiry (R160, R162, R164, R165). -/

namespace Sys2Proof.Machine

/-! ## The end of an event that stays within the reporting unit -/

/-- Every block but the reporting unit is as it was, and so are the queue and the counter of free draws. -/
def KeepsOthers (s t : State) : Prop := KeepsTrackside s t ∧ KeepsRace s t ∧ KeepsQueue s t

/-- What the end of an event makes of what the event itself left in the reporting unit: RECORDS follows the changed-slot
set, and the latch follows the causes and the timer (R161, R163). -/
def SettlesNews (u t : State) : Prop :=
  t.report.changed = u.report.changed ∧
  (∀ c, hasCause t.report.causes c =
    if c = .records then !u.report.changed.isEmpty else hasCause u.report.causes c) ∧
  LatchFollows u t ∧ KeepsTimer u t

theorem State.settleAttention_settlesNews (u : State) : SettlesNews u u.settleAttention := by
  obtain ⟨causes, latch, he, hcauses, hlatch⟩ := u.report.settle_eq
  unfold SettlesNews LatchFollows KeepsTimer
  rw [State.settleAttention_report, he]
  exact ⟨rfl, hcauses, hlatch, rfl, rfl⟩

theorem State.settleAttention_keepsPort (u : State) : KeepsPort u u.settleAttention := by
  obtain ⟨causes, latch, he, -⟩ := u.report.settle_eq
  unfold KeepsPort
  rw [State.settleAttention_report, he]
  exact ⟨rfl, rfl, rfl, rfl, rfl⟩

/-- In a legal unit RECORDS is pending exactly while the changed-slot set is not empty (R161). -/
theorem Reporting.legal.hasCause_records {r : Reporting} (h : r.legal) :
    hasCause r.causes .records = !r.changed.isEmpty := by
  obtain ⟨hrecords, -⟩ := h
  rw [Bool.eq_iff_iff, hrecords]
  simp

/-- In a legal unit an event that wrote neither the changed-slot set nor the causes leaves both (R161). -/
theorem SettlesNews.keepsCauses {s u t : State} (h : SettlesNews u t) (hl : s.report.legal)
    (hchanged : u.report.changed = s.report.changed) (hcauses : u.report.causes = s.report.causes) :
    t.report.changed = s.report.changed ∧ t.report.causes = s.report.causes := by
  obtain ⟨hset, hafter, -, -⟩ := h
  refine ⟨hset.trans hchanged, hasCause_of_ext fun c => ?_⟩
  rw [hafter, hchanged, hcauses]
  split
  · subst c
    exact hl.hasCause_records.symm
  · rfl

/-- With the timer stopped the latch is set exactly while a cause is pending (R163). -/
theorem SettlesNews.latch_of_stopped {u t : State} (h : SettlesNews u t) (ht : t.report.moderationExpiry = none) :
    t.report.latch = decide (t.report.causes ≠ 0#6) := by
  obtain ⟨-, -, hlatch, -⟩ := h
  rw [hlatch, ht]
  by_cases h0 : t.report.causes = 0#6 <;> simp [h0]

/-- While the timer runs a clear latch stays clear (R163). -/
theorem SettlesNews.latch_of_running {u t : State} {e : Nat} (h : SettlesNews u t)
    (ht : t.report.moderationExpiry = some e) (hclear : u.report.latch = false) : t.report.latch = false := by
  obtain ⟨-, -, hlatch, -⟩ := h
  rw [hlatch, ht, hclear]
  simp

/-- In a legal unit an event that left the causes and the timer as they were leaves the latch (R163). -/
theorem Reporting.legal.latch_eq {s t : State} (hl : s.report.legal) (h : LatchFollows s t)
    (hcauses : t.report.causes = s.report.causes)
    (hexpiry : t.report.moderationExpiry = s.report.moderationExpiry) : t.report.latch = s.report.latch := by
  obtain ⟨-, -, hset, hstopped, -⟩ := hl
  rw [h, hcauses, hexpiry]
  split
  · rename_i h0
    exact (Bool.eq_false_iff.2 fun hlatch => hset hlatch h0).symm
  · split
    · rename_i h0 hnone
      exact (hstopped h0 hnone).symm
    · rfl

/-- The part as a request that writes `r`, all but the port, in the reporting unit leaves it before the event ends: the
frame is taken, and its reply is loaded. -/
def State.newsWritten (s : State) (k : RequestKind) (args b : List Byte) (r : Reporting) : State :=
  (State.shiftZeros { s with report := r } (args.length + 3)).loadReply (some k) .ok b

/-- A request that is answered OK and writes, beside the port, the reporting unit alone: its end settles what it
wrote. -/
theorem State.next_of_newsWritten {s : State} {k : RequestKind} {args : List Byte} {serve : State → Served}
    {b : List Byte} {r : Reporting} (hr : s.ready) (ha : args.length ≤ 32)
    (h : serve (s.shiftZeros (args.length + 3)) =
      accept (State.shiftZeros { s with report := r } (args.length + 3)) b)
    (hport : KeepsPort s { s with report := r }) :
    ∃ t, (.next (s.takeRequest k args serve) : Out) = .next t ∧ KeepsOthers s t ∧ Answers s t k args .ok b ∧
      SettlesNews { s with report := r } t := by
  obtain ⟨⟨hagree, -⟩, hbuffer⟩ := hr
  have hanswers : Answers s (s.newsWritten k args b r) k args .ok b := by
    obtain ⟨-, hbuf, -, hread, -⟩ := hport
    unfold Answers
    rw [← hbuf, ← hread]
    exact ⟨rfl, rfl, rfl, rfl, rfl⟩
  have ht : s.takeRequest k args serve = (s.newsWritten k args b r).settleAttention := by
    rw [State.takeRequest_taken hbuffer ha, h]
    exact closeEvent_quiet hagree rfl
  exact ⟨_, congrArg _ ht, ⟨⟨rfl, rfl, rfl⟩, ⟨rfl, rfl, rfl⟩, rfl, rfl⟩, hanswers.settleAttention,
    (s.newsWritten k args b r).settleAttention_settlesNews⟩

/-! ## The bodies of READ SUMMARY and READ CHANGES (R160, R162) -/

theorem summaryBody_spelled (r : Reporting) :
    summaryBody r =
      [if r.moderationExpiry = none then 0x00#8 else 0x01#8, BitVec.ofNat 8 r.causes.toNat,
        BitVec.ofNat 8 r.changed.length, setOrClear r.latch, BitVec.ofNat 8 r.moderation] ++
      beBytes 6 (r.moderationExpiry.getD 0) := by
  have hmask : BitVec.ofNat 8 (maskOf [r.moderationExpiry.isSome]) =
      if r.moderationExpiry = none then 0x00#8 else 0x01#8 := by
    cases r.moderationExpiry <;> rfl
  rw [summaryBody, ← hmask]
  simp [bodyOf, presence, itemBytes]

theorem changesBody_spelled (r : Reporting) :
    changesBody r = [BitVec.ofNat 8 r.changed.length] ++ r.changed.map fun n => BitVec.ofNat 8 n := by
  have hslot : beBytes 1 = fun n => [BitVec.ofNat 8 n] := funext beBytes_one
  rw [changesBody, beBytes_one, hslot, List.map_eq_flatMap]

/-! ## What the requests write -/

/-- Of the causes only RECORDS is left (R162). -/
theorem State.hasCause_dropCauses (s : State) (c : Cause) :
    hasCause s.dropCauses.report.causes c = (hasCause s.report.causes c && decide (c = .records)) := by
  simp [State.dropCauses, hasCause, hasBit, oneOf, cause_code_lt, cause_code_inj]

/-- The timer of ACKNOWLEDGE runs with a setting that is not 0; with 0 it ends at once (R2, R164). -/
theorem State.acknowledge_eq (s : State) :
    s.acknowledge = { s with report := { s.report with
      latch := false,
      moderationExpiry := if s.report.moderation = 0 then none else some (s.now + s.report.moderation * 10000) } } := by
  unfold State.acknowledge
  by_cases h0 : s.report.moderation = 0
  · simp [h0, State.endModeration]
  · have hlater : ¬ s.now + s.report.moderation * Config.markStep ≤ s.now := by
      show ¬ s.now + s.report.moderation * 10000 ≤ s.now
      omega
    simp [h0, hlater]

@[simp] theorem State.acknowledge_changed (s : State) : s.acknowledge.report.changed = s.report.changed := by
  rw [s.acknowledge_eq]

@[simp] theorem State.acknowledge_causes (s : State) : s.acknowledge.report.causes = s.report.causes := by
  rw [s.acknowledge_eq]

@[simp] theorem State.acknowledge_latch (s : State) : s.acknowledge.report.latch = false := by
  rw [s.acknowledge_eq]

@[simp] theorem State.acknowledge_moderation (s : State) :
    s.acknowledge.report.moderation = s.report.moderation := by
  rw [s.acknowledge_eq]

@[simp] theorem State.acknowledge_expiry (s : State) :
    s.acknowledge.report.moderationExpiry =
      if s.report.moderation = 0 then none else some (s.now + s.report.moderation * 10000) := by
  rw [s.acknowledge_eq]

theorem parseModeration_byte {n : Nat} (h : n ≤ 100) : parseModeration [BitVec.ofNat 8 n] = some n := by
  have hmod : n % 256 = n := Nat.mod_eq_of_lt (by omega)
  simp [parseModeration, takeFields, beNat, checked, within, hmod, h]

/-- A due expiry stops the timer, and the event ends (R164). -/
theorem State.moderationExpiry_due {s : State} {e : Nat} (he : s.report.moderationExpiry = some e) (hdue : e ≤ s.now) :
    s.moderationExpiry = s.endModeration.settleAttention :=
  if_pos (by simpa [reached, he] using hdue)

/-! ## The five events -/

section Requests

variable {s : State} (hr : s.ready)

include hr

theorem exec_readSummary_settles :
    ∃ t, exec (.readSummary []) s = .next t ∧ KeepsOthers s t ∧
      Answers s t .readSummary [] .ok (summaryBody s.report) ∧ SettlesNews s.dropCauses t :=
  State.next_of_newsWritten hr (by simp) rfl ⟨rfl, rfl, rfl, rfl, rfl⟩

theorem exec_readChanges_settles :
    ∃ t, exec (.readChanges []) s = .next t ∧ KeepsOthers s t ∧
      Answers s t .readChanges [] .ok (changesBody s.report) ∧ SettlesNews s.emptyChanged t :=
  State.next_of_newsWritten hr (by simp) rfl ⟨rfl, rfl, rfl, rfl, rfl⟩

theorem exec_acknowledge_settles :
    ∃ t, exec (.acknowledge []) s = .next t ∧ KeepsOthers s t ∧ Answers s t .acknowledge [] .ok [] ∧
      SettlesNews s.acknowledge t := by
  rw [State.acknowledge_eq]
  exact State.next_of_newsWritten hr (by simp) (congrArg (accept · []) (s.shiftZeros 3).acknowledge_eq)
    ⟨rfl, rfl, rfl, rfl, rfl⟩

theorem exec_setModeration_settles {n : Nat} (hn : n ≤ 100) :
    ∃ t, exec (.setModeration [BitVec.ofNat 8 n]) s = .next t ∧ KeepsOthers s t ∧
      Answers s t .setModeration [BitVec.ofNat 8 n] .ok [] ∧
      SettlesNews { s with report := { s.report with moderation := n } } t :=
  State.next_of_newsWritten hr (by simp) (withArgs_some (parseModeration_byte hn) _ _) ⟨rfl, rfl, rfl, rfl, rfl⟩

end Requests

/-- The expiry happens while a reply is being built as at any time, and leaves the port. -/
theorem exec_moderationExpiry_settles {s : State} {e : Nat} (he : s.report.moderationExpiry = some e)
    (hdue : e ≤ s.now) :
    ∃ t, exec .moderationExpiry s = .next t ∧ KeepsOthers s t ∧ KeepsPort s t ∧ SettlesNews s.endModeration t :=
  ⟨_, congrArg Host.Outcome.next (State.moderationExpiry_due he hdue), ⟨⟨rfl, rfl, rfl⟩, ⟨rfl, rfl, rfl⟩, rfl, rfl⟩,
    s.endModeration.settleAttention_keepsPort, s.endModeration.settleAttention_settlesNews⟩

/-- Settles O56: each event writes the reporting unit alone, and its end makes of that the causes and the latch. -/
theorem attention : Obligations.Attention := by
  intro s hs asked others
  have hl : s.report.legal := hs.2
  refine ⟨fun hb => ?_, fun hb => ?_, fun hb => ?_, fun hb n hn => ?_, fun e he hdue => ?_⟩
  · obtain ⟨t, ht, hothers, hanswers, hchanged, hcauses, hlatch, htimer⟩ := exec_readSummary_settles ⟨hs, hb⟩
    rw [summaryBody_spelled] at hanswers
    refine ⟨t, ht, hothers, htimer, hlatch, hanswers, hchanged, fun c => ?_⟩
    rw [hcauses, s.hasCause_dropCauses]
    split
    · subst c
      simp [hl.hasCause_records, State.dropCauses]
    · rfl
  · obtain ⟨t, ht, hothers, hanswers, hchanged, hcauses, hlatch, htimer⟩ := exec_readChanges_settles ⟨hs, hb⟩
    rw [changesBody_spelled] at hanswers
    refine ⟨t, ht, hothers, htimer, hlatch, hanswers, hchanged, fun c => ?_⟩
    rw [hcauses]
    by_cases hc : c = .records <;> simp [hc, State.emptyChanged]
  · obtain ⟨t, ht, hothers, hanswers, hsettles⟩ := exec_acknowledge_settles ⟨hs, hb⟩
    obtain ⟨hchanged, hcauses⟩ := hsettles.keepsCauses hl s.acknowledge_changed s.acknowledge_causes
    have ⟨_, _, _, hmoderation, hexpiry⟩ := hsettles
    rw [s.acknowledge_moderation] at hmoderation
    rw [s.acknowledge_expiry] at hexpiry
    refine ⟨t, ht, hothers, hanswers, hchanged, hcauses, hmoderation, fun h0 => ?_, fun h0 => ?_⟩
    · rw [if_neg h0] at hexpiry
      exact ⟨hsettles.latch_of_running hexpiry s.acknowledge_latch, hexpiry⟩
    · rw [if_pos h0] at hexpiry
      rw [hsettles.latch_of_stopped hexpiry, hcauses]
      exact ⟨rfl, hexpiry⟩
  · obtain ⟨t, ht, hothers, hanswers, hsettles⟩ := exec_setModeration_settles ⟨hs, hb⟩ hn
    obtain ⟨hchanged, hcauses⟩ := hsettles.keepsCauses hl rfl rfl
    have ⟨_, _, hlatch, hmoderation, hexpiry⟩ := hsettles
    exact ⟨t, ht, hothers, ⟨hchanged, hcauses, hl.latch_eq hlatch hcauses hexpiry⟩, hanswers, hmoderation, hexpiry⟩
  · obtain ⟨t, ht, hothers, hport, hsettles⟩ := exec_moderationExpiry_settles he hdue
    obtain ⟨hchanged, hcauses⟩ := hsettles.keepsCauses hl rfl rfl
    have ⟨_, _, _, hmoderation, hexpiry⟩ := hsettles
    refine ⟨t, ht, hothers, hport, hchanged, hcauses, hmoderation, hexpiry, ?_⟩
    rw [hsettles.latch_of_stopped hexpiry, hcauses]

end Sys2Proof.Machine
end

section
/-! The scoring operations keep the session controller and every record legal (8.1, 4.1, R104): records and session as
they stand between events, and inside one event with a single record that is being rewritten. -/

namespace Sys2Proof.Machine

/-! ## Keyed maps written twice -/

section Maps

variable {α : Type}

theorem KeyMap.put_put (m : KeyMap α) (k : Nat) (a b : α) : (m.put k a).put k b = m.put k b := by
  induction m with
  | nil => simp [KeyMap.put]
  | cons p rest ih =>
    obtain ⟨j, c⟩ := p
    simp only [KeyMap.put]
    split
    · simp [KeyMap.put]
    · rename_i hlt
      split
      · simp [KeyMap.put]
      · rename_i hne
        simp [KeyMap.put, hlt, hne, ih]

theorem KeyMap.mapVals_put (f : Nat → α → α) (m : KeyMap α) (k : Nat) (a : α) :
    (m.put k a).mapVals f = (m.mapVals f).put k (f k a) := by
  induction m with
  | nil => rfl
  | cons p rest ih =>
    obtain ⟨j, c⟩ := p
    simp only [KeyMap.put, KeyMap.mapVals, List.map_cons] at ih ⊢
    split
    · rfl
    · split
      · rfl
      · simp only [List.map_cons, ih]

theorem KeyMap.mem_put {m : KeyMap α} {k : Nat} {a : α} {q : Nat × α} (h : q ∈ m.put k a) : q = (k, a) ∨ q ∈ m := by
  induction m with
  | nil => simpa [KeyMap.put] using h
  | cons p rest ih =>
    obtain ⟨j, c⟩ := p
    simp only [KeyMap.put] at h
    split at h
    · simpa using h
    · split at h
      · rcases List.mem_cons.1 h with h | h
        · exact .inl h
        · exact .inr (List.mem_cons_of_mem _ h)
      · rcases List.mem_cons.1 h with h | h
        · exact .inr (h ▸ List.mem_cons_self)
        · exact (ih h).imp_right (List.mem_cons_of_mem _)

/-- What stands at a key is kept by writing it there again. -/
theorem KeyMap.mem_put_of_find {m : KeyMap α} {k : Nat} {a : α} (hf : m.find k = some a) {q : Nat × α} (h : q ∈ m) :
    q ∈ m.put k a := by
  induction m with
  | nil => simp at h
  | cons p rest ih =>
    obtain ⟨j, c⟩ := p
    simp only [KeyMap.find] at hf
    simp only [KeyMap.put]
    split
    · exact List.mem_cons_of_mem _ h
    · split
      · rename_i hkj
        rw [if_pos hkj.symm] at hf
        cases hf
        rwa [hkj]
      · rename_i hkj
        rw [if_neg (Ne.symm hkj)] at hf
        rcases List.mem_cons.1 h with h | h
        · exact h ▸ List.mem_cons_self
        · exact List.mem_cons_of_mem _ (ih hf h)

end Maps

/-! ## Legal records -/

theorem Record.legal.notRetired {r : Record} (h : r.legal) (hs : r.state ≠ .retired) : r.retiredFrom = none := by
  obtain ⟨hfrom, -⟩ := h
  simpa [hs] using hfrom

theorem Record.legal.noOpenPit {r : Record} (h : r.legal) (hs : r.state ≠ .pit) : ∀ p ∈ r.pit, p.isOpen = false := by
  obtain ⟨-, -, -, hpit, -⟩ := h
  exact fun p hp => Bool.eq_false_iff.2 fun ho => hs (hpit.2 ⟨p, hp, ho⟩)

theorem Record.legal.latest_isSome {r : Record} (h : r.legal) (hs : stateInOrder r.state = true) :
    r.latest.isSome = true := by
  obtain ⟨-, -, -, -, -, -, hlatest⟩ := h
  exact hlatest (.inl hs)

/-- A record with its state, its pit record and its line state as they were, or with the line position dropped. -/
theorem Record.legal.of_standing {r r' : Record} (h : r.legal) (hstate : r'.state = r.state)
    (hfrom : r'.retiredFrom = r.retiredFrom) (hpit : r'.pit = r.pit) (hlatest : r'.latest = r.latest)
    (hstarted : r'.started = r.started) (hpos : r'.lastPos = r.lastPos ∨ r'.lastPos = none) : r'.legal := by
  obtain ⟨h1, h2, h3, h4, h5, h6, h7⟩ := h
  unfold Record.legal
  rw [hstate, hfrom, hpit, hlatest, hstarted]
  refine ⟨h1, h2, h3, h4, h5, fun hn => ?_, h7⟩
  obtain ⟨hl, ht, hs⟩ := h6 hn
  exact ⟨hpos.elim (·.trans hl) id, ht, hs⟩

/-- A record on the track or at its finish. -/
theorem Record.legal_onTrack {r : Record} (hstate : r.state = .running ∨ r.state = .finished)
    (hfrom : r.retiredFrom = none) (hpit : ∀ p ∈ r.pit, p.isOpen = false) (hlatest : r.latest.isSome = true) :
    r.legal := by
  have hclosed : ¬∃ p ∈ r.pit, p.isOpen = true := fun ⟨p, hp, ho⟩ => by simp [hpit p hp] at ho
  rcases hstate with h | h <;> simp_all [Record.legal]

/-- A record in the pit lane. -/
theorem Record.legal_inPit {r : Record} {p : PitRecord} (hstate : r.state = .pit) (hfrom : r.retiredFrom = none)
    (hpit : r.pit = some p) (hopen : p.isOpen = true) (hlatest : r.latest.isSome = true) : r.legal := by
  simp_all [Record.legal]

/-- A record that has not been scored. -/
theorem Record.legal_fresh {r : Record} (hstate : r.state = .enrolled ∨ r.state = .excluded)
    (hfrom : r.retiredFrom = none) (hpit : r.pit = none) (hpos : r.lastPos = none) (hlatest : r.latest = none)
    (hstarted : r.started = false) : r.legal := by
  rcases hstate with h | h <;> simp [Record.legal, stateInOrder, *]

/-! ## All records legal, or all but one -/

/-- Every record is legal. -/
def AllLegal (m : KeyMap Record) : Prop := ∀ q ∈ m, q.2.legal

theorem AllLegal.find {m : KeyMap Record} (h : AllLegal m) {n : Nat} {r : Record} (hr : m.find n = some r) : r.legal :=
  h (n, r) (KeyMap.find_mem hr)

theorem AllLegal.put {m : KeyMap Record} (h : AllLegal m) (n : Nat) {r : Record} (hr : r.legal) :
    AllLegal (m.put n r) := fun _ hq => (KeyMap.mem_put hq).elim (fun he => he ▸ hr) (h _)

theorem AllLegal.remove {m : KeyMap Record} (h : AllLegal m) (n : Nat) : AllLegal (m.remove n) :=
  fun _ hq => h _ ((KeyMap.remove_sublist m n).subset hq)

theorem AllLegal.mapVals {m : KeyMap Record} (h : AllLegal m) {f : Nat → Record → Record}
    (hf : ∀ n r, r.legal → (f n r).legal) : AllLegal (m.mapVals f) := by
  intro q hq
  obtain ⟨p, hp, rfl⟩ := List.mem_map.1 hq
  exact hf _ _ (h p hp)

/-- The record in a slot, with every other record legal: what stands inside an event while one record is rewritten. -/
structure State.Holds (s : State) (n : Nat) (x : Record) : Prop where
  record : s.record? n = some x
  others : ∀ y : Record, y.legal → AllLegal (s.table.records.put n y)

theorem State.Holds.of_legal {s : State} {n : Nat} {x : Record} (h : AllLegal s.table.records)
    (hx : s.record? n = some x) : s.Holds n x := ⟨hx, fun _ hy => h.put n hy⟩

theorem State.Holds.legal {s : State} {n : Nat} {x : Record} (h : s.Holds n x) (hx : x.legal) :
    AllLegal s.table.records := fun _ hq => h.others x hx _ (KeyMap.mem_put_of_find h.record hq)

theorem State.Holds.of_table {s t : State} {n : Nat} {x : Record} (h : s.Holds n x) (ht : t.table = s.table) :
    t.Holds n x := by
  refine ⟨?_, ?_⟩
  · rw [State.record?, ht]
    exact h.record
  · rw [ht]
    exact h.others

theorem State.Holds.putRecord {s : State} {n : Nat} {x : Record} (h : s.Holds n x) (y : Record) :
    (s.putRecord n y).Holds n y := by
  refine ⟨s.putRecord_record_self n y, fun z hz => ?_⟩
  rcases s.putRecord_eq n y with ⟨he, -⟩ | he
  · rw [he]
    exact h.others z hz
  · rw [he]
    simpa [KeyMap.put_put] using h.others z hz

theorem State.Holds.updRecord {s : State} {n : Nat} {x : Record} (h : s.Holds n x) (f : Record → Record) :
    (s.updRecord n f).Holds n (f x) := by
  rw [State.updRecord_some h.record]
  exact h.putRecord _

theorem State.Holds.updAll {s : State} {n : Nat} {x : Record} (h : s.Holds n x) {f : Nat → Record → Record}
    (hf : ∀ n r, r.legal → (f n r).legal) : (s.updAll f).Holds n (f n x) := by
  refine ⟨by rw [State.updAll_record, h.record]; rfl, fun y hy => ?_⟩
  rw [State.updAll_eq]
  have hput := ((h.others y hy).mapVals hf).put n hy
  rwa [KeyMap.mapVals_put, KeyMap.put_put] at hput

theorem Record.legal_takePlace {r : Record} (h : r.legal) (p : Option Nat) : (r.takePlace p).legal :=
  h.of_standing rfl rfl rfl rfl rfl (.inl rfl)

theorem State.Holds.reorder {s : State} {n : Nat} {x : Record} (h : s.Holds n x) : s.reorder.Holds n (s.placed n x) := by
  obtain ⟨causes, -, he⟩ := s.reorder_eq
  have hplaced := h.updAll (f := s.placed) fun _ _ hr => Record.legal_takePlace hr _
  rw [State.updAll_eq] at hplaced
  exact hplaced.of_table (by rw [he])

theorem AllLegal.putRecord {s : State} (h : AllLegal s.table.records) (n : Nat) {r : Record} (hr : r.legal) :
    AllLegal (s.putRecord n r).table.records := by
  rcases s.putRecord_eq n r with ⟨he, -⟩ | he
  · rwa [he]
  · rw [he]
    exact h.put n hr

theorem AllLegal.updRecord {s : State} (h : AllLegal s.table.records) (n : Nat) {f : Record → Record}
    (hf : ∀ r, r.legal → (f r).legal) : AllLegal (s.updRecord n f).table.records := by
  unfold State.updRecord
  split
  · exact h.putRecord n (hf _ (h.find ‹_›))
  · exact h

theorem AllLegal.updAll {s : State} (h : AllLegal s.table.records) {f : Nat → Record → Record}
    (hf : ∀ n r, r.legal → (f n r).legal) : AllLegal (s.updAll f).table.records := by
  rw [State.updAll_eq]
  exact h.mapVals hf

theorem AllLegal.reorder {s : State} (h : AllLegal s.table.records) : AllLegal s.reorder.table.records := by
  obtain ⟨causes, -, he⟩ := s.reorder_eq
  rw [he]
  exact h.mapVals fun _ _ hr => Record.legal_takePlace hr _

end Sys2Proof.Machine
end

section
/-! What line scoring and the pit monitor make of a record's state, its pit record and its latest scored time, and what the
chequer and the close make of the session controller (R100, R104, R139 to R142). -/

namespace Sys2Proof.Machine

/-! ## A record through a completed lap -/

section CompletedLap

variable (r : Record) (x : LastLap) (d : DeltaDirection) (w : LapTime) (t : Nat)

theorem Record.judgeLap_eq :
    r.judgeLap x t = { r with bestLap := (r.judgeLap x t).bestLap, notices := (r.judgeLap x t).notices } := by
  unfold Record.judgeLap
  split
  · split <;> rfl
  · rfl

theorem Record.judgeSectors_eq : r.judgeSectors x = { r with bestSectors := (r.judgeSectors x).bestSectors } := by
  unfold Record.judgeSectors
  split <;> rfl

/-- The fields a completed lap writes (R87, R88, R93 to R95, R97, R98). -/
theorem Record.completeLap_eq :
    r.completeLap d w t =
      { r with
        laps := nextLaps r.laps, started := true, lastLap := some (r.endingLap w),
        delta := completionDelta w r.bestLap, bestLap := (r.completeLap d w t).bestLap,
        bestSectors := (r.completeLap d w t).bestSectors, notices := (r.completeLap d w t).notices } := by
  unfold Record.completeLap
  dsimp only
  rw [Record.judgeSectors_eq, Record.judgeLap_eq]
  rfl

@[simp] theorem Record.completeLap_state : (r.completeLap d w t).state = r.state := by
  rw [Record.completeLap_eq]
@[simp] theorem Record.completeLap_retiredFrom : (r.completeLap d w t).retiredFrom = r.retiredFrom := by
  rw [Record.completeLap_eq]
@[simp] theorem Record.completeLap_pit : (r.completeLap d w t).pit = r.pit := by
  rw [Record.completeLap_eq]
@[simp] theorem Record.completeLap_latest : (r.completeLap d w t).latest = r.latest := by
  rw [Record.completeLap_eq]

end CompletedLap

/-- A stepped passing leaves the record where it is, with its own time as the latest scored (R90). -/
theorem State.steppedRecord_standing (s : State) (r : Record) (q k p t : Nat) :
    (s.steppedRecord r q k p t).state = r.state ∧ (s.steppedRecord r q k p t).retiredFrom = r.retiredFrom ∧
    (s.steppedRecord r q k p t).pit = r.pit ∧ (s.steppedRecord r q k p t).latest = some t := by
  unfold State.steppedRecord
  dsimp only
  split
  · split <;> simp [Record.lineState, Record.startLap]
  · simp [Record.lineState, Record.holdDelta]

theorem State.settledRecord_standing (s : State) (r : Record) (c : PitSettings) (q t : Nat) :
    (s.settledRecord r c q t).state = r.state ∧ (s.settledRecord r c q t).retiredFrom = r.retiredFrom ∧
    (s.settledRecord r c q t).pit = r.pit ∧ (s.settledRecord r c q t).latest = some t := by
  unfold State.settledRecord
  dsimp only
  split
  · split <;> simp [Record.startLap]
  · simp

theorem State.rejoinedRecord_standing (s : State) (r : Record) (c : PitSettings) (x : Option Nat) (t : Nat) :
    (s.rejoinedRecord r c x t).state = r.state ∧ (s.rejoinedRecord r c x t).retiredFrom = r.retiredFrom ∧
    (s.rejoinedRecord r c x t).pit = r.pit ∧
    (s.rejoinedRecord r c x t).latest = x.or r.latest := by
  unfold State.rejoinedRecord
  dsimp only
  split
  · split <;> cases x <;> simp [Record.startLap]
  · cases x <;> simp

/-! ## The session controller -/

/-- A session that brings the chequer, before the field is looked at (R141). -/
theorem Session.legal.chequer {c : Session} (h : c.legal) (hp : c.phase = .green ∨ c.phase = .caution) (now : Nat)
    (cause : ChequerCause) (slot : Option Nat) (e : Nat) :
    Session.legal { c with
      phase := .chequered, chequerTime := some now, chequerCause := some cause, chequerSlot := slot,
      finishPending := false, timeLimitExpiry := none, closeExpiry := some e } := by
  rcases hp with hp | hp <;> simp_all [Session.legal, underWay]

/-- A CHEQUERED session that closes (R142). -/
theorem Session.legal.close {c : Session} (h : c.legal) (hp : c.phase = .chequered) :
    Session.legal { c with phase := .closed, closeExpiry := none, locked := false } := by
  simp_all [Session.legal, underWay]

/-- The session and every record are legal (8.1, 4.1). -/
structure State.RaceLegal (s : State) : Prop where
  session : s.session.legal
  records : AllLegal s.table.records

theorem State.fieldIn_table (s : State) : s.fieldIn.table = s.table := by
  unfold State.fieldIn
  split <;> rfl

theorem State.fieldIn_legal {s : State} (h : s.session.legal) : s.fieldIn.session.legal := by
  unfold State.fieldIn
  split
  · rename_i hc
    exact h.close hc.1
  · exact h

/-- With a record in RUNNING or PIT the field is not in (R142). -/
theorem State.fieldIn_of_onTrack {s : State} {n : Nat} {r : Record} (hr : s.record? n = some r)
    (hs : r.state = .running ∨ r.state = .pit) : s.fieldIn = s := by
  have hcount : ∀ st, r.state = st → s.countIn st ≠ 0 := fun st hst hz => by
    have hmem : (n, r) ∈ s.table.records.filter fun p => decide (p.2.state = st) :=
      List.mem_filter.2 ⟨KeyMap.find_mem hr, by simpa using hst⟩
    exact List.ne_nil_of_mem hmem (List.length_eq_zero_iff.1 hz)
  have hfield : s.fieldEmpty = false := by
    rcases hs with h | h <;> simp [State.fieldEmpty, hcount _ h]
  unfold State.fieldIn
  simp [hfield]

theorem State.enterChequered_table (s : State) (cause : ChequerCause) (slot : Option Nat) :
    (s.enterChequered cause slot).table = s.table := State.fieldIn_table _

theorem State.enterChequered_legal {s : State} (h : s.session.legal)
    (hp : s.session.phase = .green ∨ s.session.phase = .caution) (cause : ChequerCause) (slot : Option Nat) :
    (s.enterChequered cause slot).session.legal := State.fieldIn_legal (h.chequer hp _ _ _ _)

theorem State.enterChequered_phase {s : State} {n : Nat} {r : Record} (hr : s.record? n = some r)
    (hs : r.state = .running ∨ r.state = .pit) (cause : ChequerCause) (slot : Option Nat) :
    (s.enterChequered cause slot).session.phase = .chequered := by
  have hfield := fun c => State.fieldIn_of_onTrack (s := s.setSession c) hr hs
  rw [State.enterChequered, hfield]
  rfl

theorem State.timeLimitHappens_table (s : State) : s.timeLimitHappens.table = s.table := by
  unfold State.timeLimitHappens
  dsimp only
  split
  · rfl
  · exact State.enterChequered_table _ _ _

theorem State.timeLimitHappens_legal {s : State} (h : s.session.legal)
    (hp : s.session.phase = .green ∨ s.session.phase = .caution) : s.timeLimitHappens.session.legal := by
  have hcleared : Session.legal { s.session with timeLimitExpiry := none } := by
    rcases hp with hp | hp <;> simp_all [Session.legal]
  unfold State.timeLimitHappens
  dsimp only
  split
  · rcases hp with hp | hp <;> simp_all [Session.legal]
  · exact State.enterChequered_legal (s := s.setSession _) hcleared hp _ _

theorem State.setTimeLimit_table (s : State) (e : Nat) : (s.setTimeLimit e).table = s.table := by
  unfold State.setTimeLimit
  dsimp only
  split
  · exact State.timeLimitHappens_table _
  · rfl

theorem State.setTimeLimit_legal {s : State} (h : s.session.legal)
    (hp : s.session.phase = .green ∨ s.session.phase = .caution) (e : Nat) : (s.setTimeLimit e).session.legal := by
  have hset : Session.legal { s.session with timeLimitExpiry := some e } := by
    rcases hp with hp | hp <;> simp_all [Session.legal]
  unfold State.setTimeLimit
  dsimp only
  split
  · exact State.timeLimitHappens_legal (s := s.setSession _) hset hp
  · exact hset

/-- A completion brings the chequer or nothing, and the chequer only out of GREEN and CAUTION (R140). -/
theorem State.completion_cases (s : State) (n : Nat) (found : Phase) :
    s.completion n found = s ∨
    (found = .green ∨ found = .caution) ∧ ∃ cause, s.completion n found = s.enterChequered cause (some n) := by
  unfold State.completion
  split
  · rename_i hfound
    split
    · split
      · exact .inr ⟨hfound.2, _, rfl⟩
      · split
        · exact .inr ⟨hfound.2, _, rfl⟩
        · exact .inl rfl
    · exact .inl rfl
  · exact .inl rfl

theorem State.completion_table (s : State) (n : Nat) (found : Phase) : (s.completion n found).table = s.table := by
  rcases s.completion_cases n found with h | ⟨-, cause, h⟩
  · rw [h]
  · rw [h, State.enterChequered_table]

theorem State.completion_legal {s : State} (h : s.session.legal) (n : Nat) {found : Phase}
    (hfound : found = s.session.phase) : (s.completion n found).session.legal := by
  rcases s.completion_cases n found with he | ⟨hp, cause, he⟩
  · rwa [he]
  · rw [he]
    exact State.enterChequered_legal h (hfound ▸ hp) _ _

/-- A completion that leaves the session other than CHEQUERED leaves it as it was, while a record is on the track. -/
theorem State.completion_session {s : State} {m : Nat} {r : Record} (hr : s.record? m = some r)
    (hs : r.state = .running ∨ r.state = .pit) (n : Nat) (found : Phase)
    (hc : (s.completion n found).session.phase ≠ .chequered) : s.completion n found = s := by
  rcases s.completion_cases n found with he | ⟨-, cause, he⟩
  · exact he
  · rw [he] at hc
    exact absurd (State.enterChequered_phase hr hs _ _) hc

end Sys2Proof.Machine
end

section
/-! Line scoring, the pit monitor and the dispatch of a passing keep the session controller and every record legal (8.1,
4.1, R104). -/

namespace Sys2Proof.Machine

/-! ## Finishing and crossing (R100, R124) -/

theorem State.RaceLegal.of_holds {s : State} {n : Nat} {x : Record} (hs : s.session.legal) (h : s.Holds n x)
    (hx : x.legal) : s.RaceLegal := ⟨hs, h.legal hx⟩

theorem State.RaceLegal.holds {s : State} (h : s.RaceLegal) {n : Nat} {x : Record} (hx : s.record? n = some x) :
    s.Holds n x := .of_legal h.records hx

theorem State.RaceLegal.fieldIn {s : State} (h : s.RaceLegal) : s.fieldIn.RaceLegal :=
  ⟨State.fieldIn_legal h.session, by rw [State.fieldIn_table]; exact h.records⟩

theorem State.RaceLegal.reorder {s : State} (h : s.RaceLegal) : s.reorder.RaceLegal :=
  ⟨by rw [State.reorder_session]; exact h.session, h.records.reorder⟩

theorem State.RaceLegal.updRecord {s : State} (h : s.RaceLegal) (n : Nat) {f : Record → Record}
    (hf : ∀ r, r.legal → (f r).legal) : (s.updRecord n f).RaceLegal := by
  refine ⟨?_, h.records.updRecord n hf⟩
  unfold State.updRecord
  split
  · rcases s.putRecord_eq n (f ‹Record›) with ⟨he, -⟩ | he <;> rw [he] <;> exact h.session
  · exact h.session

@[simp] theorem State.putRecord_session (s : State) (n : Nat) (r : Record) : (s.putRecord n r).session = s.session := by
  rcases s.putRecord_eq n r with ⟨h, -⟩ | h <;> rw [h]
  rfl

@[simp] theorem State.updRecord_session (s : State) (n : Nat) (f : Record → Record) :
    (s.updRecord n f).session = s.session := by
  unfold State.updRecord
  split
  · exact s.putRecord_session _ _
  · rfl

theorem State.RaceLegal.putRecord {s : State} (h : s.RaceLegal) (n : Nat) {r : Record} (hr : r.legal) :
    (s.putRecord n r).RaceLegal := ⟨by rw [State.putRecord_session]; exact h.session, h.records.putRecord n hr⟩

theorem State.RaceLegal.reject {s : State} (h : s.RaceLegal) (n : Nat) (l : LinkNo) (t : Nat) (why : Reason) :
    (s.reject n l t why).RaceLegal :=
  h.updRecord n fun _ hr => hr.of_standing rfl rfl rfl rfl rfl (.inl rfl)

/-- A record that differs in nothing its legality reads. -/
def Record.SameStanding (r r' : Record) : Prop :=
  r'.state = r.state ∧ r'.retiredFrom = r.retiredFrom ∧ r'.pit = r.pit ∧ r'.latest = r.latest

theorem Record.SameStanding.refl (r : Record) : r.SameStanding r := ⟨rfl, rfl, rfl, rfl⟩

/-- A crossing leaves every record where it is (R124). -/
theorem State.Holds.crossing {s : State} {n : Nat} {x : Record} (h : s.Holds n x) (t : Nat) :
    ∃ y, x.SameStanding y ∧ (s.crossing n t).Holds n y ∧ (s.crossing n t).session = s.session := by
  have hp := h.reorder
  unfold State.crossing
  simp only [hp.record]
  split
  · refine ⟨{ s.placed n x with gap := _ }, ⟨rfl, rfl, rfl, rfl⟩, State.Holds.putRecord (x := s.placed n x) ?_ _, ?_⟩
    · exact hp.of_table rfl
    · rw [State.putRecord_session]
      exact s.reorder_session
  · exact ⟨s.placed n x, ⟨rfl, rfl, rfl, rfl⟩, hp, s.reorder_session⟩

/-- A record on the track or in the pit lane that finishes (R100). -/
theorem State.RaceLegal.finishRecord {s : State} {n : Nat} {x : Record} (hs : s.session.legal) (h : s.Holds n x)
    (hfrom : x.retiredFrom = none) (hpit : ∀ p ∈ x.pit, p.isOpen = false) (hlatest : x.latest.isSome = true)
    (at' : Option Nat) :
    (s.finishRecord n at').RaceLegal ∧
      ∃ y, (s.finishRecord n at').record? n = some y ∧ y.state = .finished := by
  have hput := h.updRecord fun r => r.finished s.lineCount at'
  have hlegal : (x.finished s.lineCount at').legal := Record.legal_onTrack (.inr rfl) hfrom hpit hlatest
  have hsession : (s.updRecord n fun r => r.finished s.lineCount at').session.legal := by
    rwa [State.updRecord_session]
  refine ⟨(State.RaceLegal.of_holds hsession hput hlegal).reorder.fieldIn, ?_⟩
  unfold State.finishRecord State.record?
  rw [State.fieldIn_table]
  exact ⟨_, hput.reorder.record, rfl⟩

/-! ## Line scoring (R79, R80, R99) -/

/-- A completion by a record on the track: it finishes the record in a CHEQUERED session, and leaves the session as it was
where it does not (R99, R100, R140). -/
theorem State.completion_finishes {s : State} {n : Nat} {x : Record} {found : Phase} (hs : s.session.legal)
    (h : s.Holds n x) (hx : x.state = .running) (hlegal : x.legal) (hfound : found = s.session.phase)
    (done : Bool) (at' : Option Nat) :
    let t := (if done then s.completion n found else s).finishIfChequered n done at'
    t.RaceLegal ∧ ((∃ y, t.record? n = some y ∧ y.state = .finished) ∨ t = s) := by
  have hrace : s.RaceLegal := ⟨hs, h.legal hlegal⟩
  cases done with
  | false => exact ⟨by simpa [State.finishIfChequered] using hrace, .inr (by simp [State.finishIfChequered])⟩
  | true =>
    have hclegal := State.completion_legal hs n hfound
    have hc : (s.completion n found).Holds n x := h.of_table (s.completion_table n found)
    simp only [if_true, State.finishIfChequered, true_and]
    split
    · have hfrom := hlegal.notRetired (by simp [hx])
      have hpit := hlegal.noOpenPit (by simp [hx])
      have hlatest := hlegal.latest_isSome (by simp [hx, stateInOrder])
      obtain ⟨hl, hy⟩ := State.RaceLegal.finishRecord hclegal hc hfrom hpit hlatest at'
      exact ⟨hl, .inl hy⟩
    · rename_i hp
      have he := State.completion_session h.record (.inl hx) n found hp
      rw [he]
      exact ⟨hrace, .inr rfl⟩

theorem State.RaceLegal.scoreStep {s : State} (h : s.RaceLegal) {n : Nat} {r : Record} (hr : s.record? n = some r)
    (hrun : r.state = .running) (q k p t : Nat) : (s.scoreStep n r q k p t).RaceLegal := by
  obtain ⟨hstate, hfrom, hpit, hlatest⟩ := s.steppedRecord_standing r q k p t
  have hlr := h.records.find hr
  have hput := (h.holds hr).putRecord (s.steppedRecord r q k p t)
  obtain ⟨y, ⟨y1, y2, y3, y4⟩, hy, hys⟩ := hput.crossing t
  have hylegal : y.legal := by
    refine Record.legal_onTrack (.inl (y1.trans (hstate.trans hrun))) ?_ ?_ ?_
    · rw [y2, hfrom, hlr.notRetired (by simp [hrun])]
    · rw [y3, hpit]
      exact hlr.noOpenPit (by simp [hrun])
    · rw [y4, hlatest]
      rfl
  rw [State.putRecord_session] at hys
  exact (State.completion_finishes (hys ▸ h.session) hy (y1.trans (hstate.trans hrun)) hylegal
    (congrArg Session.phase hys).symm _ _).1

/-- A first line passing starts the record on the track (R80). -/
theorem State.RaceLegal.firstLine {s : State} (h : s.RaceLegal) {n : Nat} {r : Record} (hr : s.record? n = some r)
    (hs : r.state = .enrolled ∨ r.state = .running) (p t : Nat) : (s.firstLine n r p t).RaceLegal := by
  have hlr := h.records.find hr
  have hput := (h.holds hr).putRecord (r.firstLine (decide (s.session.phase = .caution)) p t (s.elapsedAt t))
  obtain ⟨y, ⟨y1, y2, y3, y4⟩, hy, hys⟩ := hput.crossing t
  have hne : r.state ≠ .retired ∧ r.state ≠ .pit := by rcases hs with hs | hs <;> simp [hs]
  have hylegal : y.legal := by
    refine Record.legal_onTrack (.inl y1) ?_ ?_ ?_
    · rw [y2]
      exact hlr.notRetired hne.1
    · rw [y3]
      exact hlr.noOpenPit hne.2
    · rw [y4]
      rfl
  rw [State.putRecord_session] at hys
  exact .of_holds (hys ▸ h.session) hy hylegal

theorem State.RaceLegal.scoreLine {s : State} (h : s.RaceLegal) {n : Nat} {r : Record} (hr : s.record? n = some r)
    (hs : r.state = .enrolled ∨ r.state = .running) (l : LinkNo) (p t : Nat) : (s.scoreLine n l p t).RaceLegal := by
  unfold State.scoreLine
  rw [hr]
  dsimp only
  split
  · exact h.firstLine hr hs p t
  · rename_i q hq
    obtain ⟨-, -, -, -, -, hfresh, -⟩ := h.records.find hr
    have hrun : r.state = .running := hs.resolve_left fun he => by simp [hfresh (.inl he)] at hq
    split
    · exact h.reject n l t _
    · exact h.scoreStep hr hrun q _ p t

/-! ## Entering the pit lane (R106) -/

theorem State.RaceLegal.openStop {s : State} (h : s.RaceLegal) {n : Nat} {r : Record} (hr : s.record? n = some r)
    (hs : r.state = .enrolled ∨ r.state = .running) (c : PitSettings) (entry : Option Nat) (t : Nat) :
    (s.openStop n c entry t).RaceLegal ∧ (s.openStop n c entry t).session = s.session ∧
      ∃ y, (s.openStop n c entry t).record? n = some y ∧ y.state = .pit := by
  have hlr := h.records.find hr
  have hfrom : r.retiredFrom = none := hlr.notRetired (by rcases hs with hs | hs <;> simp [hs])
  have hput := (h.holds hr).updRecord fun r => { r.enterPit c s.lineCount entry with latest := some t }
  have hy : Record.legal { r.enterPit c s.lineCount entry with latest := some t } :=
    Record.legal_inPit rfl hfrom rfl rfl rfl
  have hsession := s.updRecord_session n fun r => { r.enterPit c s.lineCount entry with latest := some t }
  exact ⟨(State.RaceLegal.of_holds (hsession ▸ h.session) hput hy).reorder, (State.reorder_session _).trans hsession,
    _, hput.reorder.record, rfl⟩

/-- A pit entry finishes the record, or leaves it in the pit lane and the session as it was (R106). -/
theorem State.RaceLegal.pitEntry {s : State} (h : s.RaceLegal) {n : Nat} {r : Record} (hr : s.record? n = some r)
    (hs : r.state = .enrolled ∨ r.state = .running) (c : PitSettings) (entry : Option Nat) (t : Nat) :
    let u := s.pitEntry n r c s.session.phase entry t
    u.RaceLegal ∧ ((∃ y, u.record? n = some y ∧ y.state = .finished) ∨
      u.session = s.session ∧ ∃ y, u.record? n = some y ∧ y.state = .pit) := by
  have hstop := h.openStop hr hs c entry t
  dsimp only
  unfold State.pitEntry
  split
  · rename_i q hq
    split
    · exact ⟨hstop.1, .inr hstop.2⟩
    · have hlr := h.records.find hr
      have hrun : r.state = .running := by
        obtain ⟨-, -, -, -, -, hfresh, -⟩ := hlr
        exact hs.resolve_left fun he => by simp [hfresh (.inl he)] at hq
      obtain ⟨hstate, hfrom, hpit, hlatest⟩ := s.settledRecord_standing r c q t
      have hput := (h.holds hr).putRecord (s.settledRecord r c q t)
      have hlegal : (s.settledRecord r c q t).legal := by
        refine Record.legal_onTrack (.inl (hstate.trans hrun)) ?_ ?_ ?_
        · rw [hfrom, hlr.notRetired (by simp [hrun])]
        · rw [hpit]
          exact hlr.noOpenPit (by simp [hrun])
        · rw [hlatest]
          rfl
      dsimp only
      generalize completes s.lineCount q (stepsFrom s.lineCount q c.inAfter) = done
      generalize hu : (s.putRecord n (s.settledRecord r c q t)).pitCompletion n s.session.phase done none = u
      have hcases : u.RaceLegal ∧ ((∃ y, u.record? n = some y ∧ y.state = .finished) ∨
          u.session = s.session ∧ ∃ y, u.record? n = some y ∧ y.state = .running) := by
        subst hu
        cases done with
        | true =>
          have hsession : (s.putRecord n (s.settledRecord r c q t)).reorder.session = s.session := by simp
          obtain ⟨hl, hc⟩ := State.completion_finishes (hsession ▸ h.session) hput.reorder (hstate.trans hrun)
            (Record.legal_takePlace hlegal _) (congrArg Session.phase hsession).symm true none
          refine ⟨hl, hc.imp_right fun he => ?_⟩
          exact ⟨(congrArg State.session he).trans hsession, _,
            (congrArg (State.record? · n) he).trans hput.reorder.record, hstate.trans hrun⟩
        | false => exact ⟨h.putRecord n hlegal, .inr ⟨by simp [State.pitCompletion], _, hput.record, hstate.trans hrun⟩⟩
      obtain ⟨hul, ⟨y, hy, hfin⟩ | ⟨hus, y, hy, hyrun⟩⟩ := hcases
      · rw [if_neg (by simp [State.notFinished, hy, hfin])]
        exact ⟨hul, .inl ⟨y, hy, hfin⟩⟩
      · rw [if_pos (by simp [State.notFinished, hy, hyrun])]
        obtain ⟨h1, h2, h3⟩ := hul.openStop hy (.inr hyrun) c entry t
        exact ⟨h1, .inr ⟨h2.trans hus, h3⟩⟩
  · exact ⟨hstop.1, .inr hstop.2⟩

/-! ## Leaving the pit lane (R108 to R112) -/

theorem PitRecord.closedAt_isOpen (p : PitRecord) (c : PitSettings) (t : Nat) : (p.closedAt c t).isOpen = false := by
  unfold PitRecord.closedAt
  split <;> rfl

theorem Record.exitPit_closed (r : Record) (c : PitSettings) (t : Nat) :
    (r.exitPit c t).state = r.state ∧ (r.exitPit c t).retiredFrom = r.retiredFrom ∧
    ∀ p ∈ (r.exitPit c t).pit, p.isOpen = false := by
  unfold Record.exitPit
  split
  · exact ⟨rfl, rfl, fun p hp => by cases hp; exact PitRecord.closedAt_isOpen _ _ _⟩
  · rename_i hn
    exact ⟨rfl, rfl, by simp [hn]⟩

/-- A record whose stop is closed is back on the track, or finished (R110, R114). -/
theorem State.RaceLegal.rejoin {s : State} (h : s.RaceLegal) {n : Nat} {r0 r : Record} (hr0 : s.record? n = some r0)
    (hfrom : r.retiredFrom = none) (hpit : ∀ p ∈ r.pit, p.isOpen = false) (c : PitSettings) (exit : Option Nat) (t : Nat)
    (hlatest : (exit.or r.latest).isSome = true) :
    let u := s.rejoin n r c s.session.phase exit t
    u.RaceLegal ∧ ∃ y, u.record? n = some y ∧ (y.state = .running ∨ y.state = .finished) := by
  obtain ⟨h1, h2, h3, h4⟩ := s.rejoinedRecord_standing r c exit t
  have hput := (h.holds hr0).putRecord (s.rejoinedRecord r c exit t)
  have hback : ∀ (v : State) (x : Record), v.session.legal → v.Holds n x →
      (s.rejoinedRecord r c exit t).SameStanding x → (v.backOnTrack n).RaceLegal ∧
        ∃ y, (v.backOnTrack n).record? n = some y ∧ (y.state = .running ∨ y.state = .finished) := by
    rintro v x hv hx ⟨x1, x2, x3, x4⟩
    have hupd := hx.updRecord fun r => r.become .running
    have hl : (x.become .running).legal := by
      refine Record.legal_onTrack (.inl rfl) ?_ ?_ ?_
      · exact x2.trans (h2.trans hfrom)
      · exact fun p hp => hpit p (h3 ▸ x3 ▸ hp)
      · exact (congrArg Option.isSome (x4.trans h4)).trans hlatest
    exact ⟨(State.RaceLegal.of_holds (by simpa using hv) hupd hl).reorder, _, hupd.reorder.record, .inl rfl⟩
  dsimp only
  unfold State.rejoin
  dsimp only
  split
  · have hsession : (s.putRecord n (s.rejoinedRecord r c exit t)).reorder.session = s.session := by simp
    have hc := hput.reorder.of_table (State.completion_table _ n s.session.phase)
    have hcs := State.completion_legal (found := s.session.phase) (hsession ▸ h.session) n
      (congrArg Session.phase hsession).symm
    split
    · have hupd := hc.updRecord fun r => { r with latest := some t }
      obtain ⟨hl, y, hy, hfin⟩ := State.RaceLegal.finishRecord (by simpa using hcs) hupd (h2.trans hfrom)
        (fun p hp => hpit p (h3 ▸ hp)) rfl exit
      exact ⟨hl, y, hy, .inr hfin⟩
    · exact hback _ _ hcs hc ⟨rfl, rfl, rfl, rfl⟩
  · exact hback _ _ (by simpa using h.session) hput (Record.SameStanding.refl _)

theorem State.RaceLegal.pitExit {s : State} (h : s.RaceLegal) {n : Nat} {r : Record} (hr : s.record? n = some r)
    (hs : r.state = .pit) (c : PitSettings) (t : Nat) : (s.pitExit n c s.session.phase t).RaceLegal := by
  obtain ⟨hstate, hfrom, hpit⟩ := r.exitPit_closed c t
  unfold State.pitExit
  rw [hr]
  have hl := h.records.find hr
  exact (h.rejoin hr (hfrom.trans (hl.notRetired (by simp [hs]))) hpit c (some t) t rfl).1

theorem State.RaceLegal.missedPitIn {s : State} (h : s.RaceLegal) {n : Nat} {r : Record} (hr : s.record? n = some r)
    (hs : r.state = .running) (c : PitSettings) (t : Nat) : (s.missedPitIn n r c s.session.phase t).RaceLegal := by
  unfold State.missedPitIn
  dsimp only
  obtain ⟨hl, ⟨y, hy, hfin⟩ | ⟨hsession, y, hy, hpit⟩⟩ := h.pitEntry hr (.inr hs) c none t
  · rw [if_neg (by simp [State.notFinished, hy, hfin])]
    exact hl
  · rw [if_pos (by simp [State.notFinished, hy, hpit])]
    have hexit := hl.pitExit hy hpit c t
    rwa [hsession] at hexit

/-! ## Line passings of a record in the pit lane (R113, R114) -/

theorem State.RaceLegal.cancelPit {s : State} (h : s.RaceLegal) {n : Nat} {r : Record} (hr : s.record? n = some r)
    (hs : r.state = .pit) (c : PitSettings) (l : LinkNo) (p t : Nat) : (s.cancelPit n r c l p t).RaceLegal := by
  unfold State.cancelPit
  split
  · exact h.reject n l t _
  · have hl := h.records.find hr
    have hput := (h.holds hr).putRecord (r.cancelStop c s.lineCount l t)
    have hlegal : (r.cancelStop c s.lineCount l t).legal :=
      Record.legal_onTrack (.inl rfl) (hl.notRetired (by simp [hs])) (fun p hp => nomatch hp)
        (hl.latest_isSome (by simp [hs, stateInOrder]))
    exact (h.putRecord n hlegal).reorder.scoreLine hput.reorder.record (.inr rfl) l p t

theorem State.RaceLegal.missedPitOut {s : State} (h : s.RaceLegal) {n : Nat} {r : Record} (hr : s.record? n = some r)
    (hs : r.state = .pit) (c : PitSettings) (l : LinkNo) (p t : Nat) :
    (s.missedPitOut n r c l s.session.phase p t).RaceLegal := by
  unfold State.missedPitOut
  split
  · exact h.reject n l t _
  · have hl := h.records.find hr
    have hclosed : ∀ p ∈ r.exitUnseen.pit, p.isOpen = false := by
      intro p hp
      obtain ⟨p0, -, rfl⟩ := Option.mem_map.1 hp
      rfl
    obtain ⟨hu, y, hy, hys⟩ := h.rejoin (r := r.exitUnseen) hr (hl.notRetired (by simp [hs])) hclosed c none t
      (hl.latest_isSome (by simp [hs, stateInOrder]))
    dsimp only
    split
    · rename_i hrun
      have hyrun : y.state = .running := hys.resolve_right fun hf => by simp [State.notFinished, hy, hf] at hrun
      exact hu.scoreLine hy (.inr hyrun) l p t
    · exact hu

/-! ## Taking a passing (R70, R105) -/

theorem State.RaceLegal.takePitIn {s : State} (h : s.RaceLegal) {n : Nat} {r : Record} (hr : s.record? n = some r)
    (c : PitSettings) (l : LinkNo) (t : Nat) : (s.takePitIn n r c l t).RaceLegal := by
  unfold State.takePitIn
  split
  · exact (h.pitEntry hr (.inl ‹_›) c _ t).1
  · split
    · exact h.reject n l t _
    · exact (h.pitEntry hr (.inr ‹_›) c _ t).1
  · exact h.reject n l t _
  all_goals exact h

theorem State.RaceLegal.takePitOut {s : State} (h : s.RaceLegal) {n : Nat} {r : Record} (hr : s.record? n = some r)
    (c : PitSettings) (l : LinkNo) (t : Nat) : (s.takePitOut n r c l t).RaceLegal := by
  have hl := h.records.find hr
  unfold State.takePitOut
  split
  · rename_i hs
    exact h.putRecord n (Record.legal_onTrack (.inl rfl) (hl.notRetired (by simp [hs])) (hl.noOpenPit (by simp [hs])) rfl)
  · split
    · exact h.reject n l t _
    · split
      · exact h.reject n l t _
      · exact h.missedPitIn hr ‹_› c t
  · split
    · exact h.reject n l t _
    · exact h.pitExit hr ‹_› c t
  all_goals exact h

theorem State.RaceLegal.takePitLine {s : State} (h : s.RaceLegal) {n : Nat} {r : Record} (hr : s.record? n = some r)
    (hs : r.state = .pit) (c : PitSettings) (l : LinkNo) (p t : Nat) : (s.takePitLine n r c l p t).RaceLegal := by
  unfold State.takePitLine
  split
  · exact h.reject n l t _
  · split
    · exact h.cancelPit hr hs c l p t
    · exact h.missedPitOut hr hs c l p t

theorem State.RaceLegal.withPit {s : State} (h : s.RaceLegal) {f : PitSettings → State} (hf : ∀ c, (f c).RaceLegal) :
    (s.withPit f).RaceLegal := by
  unfold State.withPit
  split
  · exact hf _
  · exact h

theorem State.RaceLegal.dispatchLine {s : State} (h : s.RaceLegal) {n : Nat} {r : Record} (hr : s.record? n = some r)
    (l : LinkNo) (p t : Nat) : (s.dispatchLine n r l p t).RaceLegal := by
  unfold State.dispatchLine
  split
  · exact h.scoreLine hr (.inl ‹_›) l p t
  · exact h.scoreLine hr (.inr ‹_›) l p t
  · exact h.withPit fun c => h.takePitLine hr ‹_› c l p t
  all_goals exact h

theorem State.RaceLegal.dispatch {s : State} (h : s.RaceLegal) (n : Nat) (l : LinkNo) (t : Nat) :
    (s.dispatch n l t).RaceLegal := by
  unfold State.dispatch
  split
  · split
    · exact h
    · split
      · exact h.dispatchLine ‹_› l _ t
      · exact h.withPit fun c => h.takePitIn ‹_› c l t
      · exact h.withPit fun c => h.takePitOut ‹_› c l t
      · exact h
  · exact h

theorem State.RaceLegal.handOn {s : State} (h : s.RaceLegal) (l : LinkNo) (code t : Nat) (q : Quality) :
    (s.handOn l code t q).RaceLegal := by
  have hsight : ∀ r : Record, r.legal → (r.sight l t q).legal := fun r hr => by
    unfold Record.sight
    split
    · exact hr
    · exact hr.of_standing rfl rfl rfl rfl rfl (.inl rfl)
  unfold State.handOn
  split
  · exact h
  · split
    · exact (h.updRecord _ hsight).dispatch _ l t
    · unfold State.seeUnknown
      split
      · exact ⟨h.session, h.records⟩
      · split
        · exact ⟨h.session, h.records⟩
        · split <;> exact ⟨h.session, h.records⟩

end Sys2Proof.Machine
end

section
/-! What the competitor table, the running order and the session controller can do in an event: every part of an event
that works on them keeps the other blocks, notes each record it changes (R74), and keeps the table (R53, R58, R60), the
unknown list (R75), the records and the session (8.1, 4.1) legal. -/

namespace Sys2Proof.Machine

/-! ## The relation -/

/-- A part of an event within the competitor table, the running order and the session controller. -/
structure RacePart (s t : State) : Prop where
  trackside : KeepsTrackside s t
  port : KeepsPort s t
  timer : KeepsTimer s t
  noted : ∀ n, t.record? n ≠ s.record? n → n ∈ t.report.changed
  joined : ∀ n ∈ s.report.changed, n ∈ t.report.changed
  sorted : s.report.changed.Pairwise (· < ·) → t.report.changed.Pairwise (· < ·)
  caused : ∀ c, hasCause s.report.causes c = true → hasCause t.report.causes c = true
  table : s.table.legal → t.table.legal
  unknown : s.table.legal → s.table.unknownLegal → t.table.unknownLegal
  race : s.RaceLegal → t.RaceLegal

theorem KeyMap.pairwise_iff {α : Type} {m : KeyMap α} (hw : m.wf) {R : α → α → Prop} (hsymm : ∀ a b, R a b → R b a) :
    m.Pairwise (fun p q => R p.2 q.2) ↔ ∀ j k a b, m.find j = some a → m.find k = some b → j ≠ k → R a b := by
  refine ⟨fun h j k a b ha hb hne => ?_, fun h => ?_⟩
  · have : Std.Symm fun p q : Nat × α => R p.2 q.2 := ⟨fun p q => hsymm p.2 q.2⟩
    exact h.forall (KeyMap.find_mem ha) (KeyMap.find_mem hb) fun he => hne (congrArg Prod.fst he)
  · exact (List.pairwise_map.1 hw).imp_of_mem fun {p q} hp hq hlt =>
      h p.1 q.1 p.2 q.2 (KeyMap.find_of_mem hw hp) (KeyMap.find_of_mem hw hq) (Nat.ne_of_lt hlt)

/-- A legal table, slot by slot and code by code (R53, R58, R60). -/
theorem CompetitorTable.legal_iff (a : CompetitorTable) :
    a.legal ↔ a.records.wf ∧ a.index.wf ∧
      (∀ n r, a.records.find n = some r → a.index.find r.code = some n) ∧
      (∀ c n, a.index.find c = some n → ∃ r, a.records.find n = some r ∧ r.code = c) ∧
      (∀ j k r o, a.records.find j = some r → a.records.find k = some o → j ≠ k → r.car ≠ o.car) ∧
      (∀ n r, a.records.find n = some r → 1 ≤ n ∧ n ≤ 128) ∧ 1 ≤ a.slotLimit ∧ a.slotLimit ≤ 128 := by
  unfold CompetitorTable.legal
  refine and_congr_right fun hw => and_congr_right fun hiw => and_congr ?_ (and_congr ?_ (and_congr ?_
    (and_congr ?_ Iff.rfl)))
  · exact ⟨fun h n r hr => h (n, r) (KeyMap.find_mem hr), fun h p hp => h _ _ (KeyMap.find_of_mem hw hp)⟩
  · refine ⟨fun h c n hc => ?_, fun h q hq => ?_⟩
    · obtain ⟨⟨m, r⟩, hp, rfl, hcode⟩ := h (c, n) (KeyMap.find_mem hc)
      exact ⟨r, KeyMap.find_of_mem hw hp, hcode⟩
    · obtain ⟨r, hr, hcode⟩ := h _ _ (KeyMap.find_of_mem hiw hq)
      exact ⟨(q.2, r), KeyMap.find_mem hr, rfl, hcode⟩
  · exact KeyMap.pairwise_iff (R := fun r o : Record => r.car ≠ o.car) hw fun _ _ h => h.symm
  · exact ⟨fun h n r hr => h (n, r) (KeyMap.find_mem hr), fun h p hp => h _ _ (KeyMap.find_of_mem hw hp)⟩

/-- Records with the codes, car numbers and slots they had, under the same index, are as legal as they were. -/
theorem CompetitorTable.legal.of_identity {a b : CompetitorTable} (h : a.legal) (hbw : b.records.wf)
    (hident : ∀ n, (b.records.find n).map (fun r => (r.code, r.car)) = (a.records.find n).map fun r => (r.code, r.car))
    (hindex : b.index = a.index) (hlimit : b.slotLimit = a.slotLimit) : b.legal := by
  obtain ⟨-, hiw, hheld, hpair, hcar, hslots, hlimits⟩ := a.legal_iff.1 h
  have hback : ∀ n r, b.records.find n = some r → ∃ o, a.records.find n = some o ∧ o.code = r.code ∧ o.car = r.car := by
    intro n r hr
    have hi := hident n
    rw [hr] at hi
    obtain ⟨o, ho, he⟩ := Option.map_eq_some_iff.1 hi.symm
    exact ⟨o, ho, congrArg Prod.fst he, congrArg Prod.snd he⟩
  refine b.legal_iff.2 ⟨hbw, hindex ▸ hiw, fun n r hr => ?_, fun c n hc => ?_, fun j k r o hr ho hne => ?_,
    fun n r hr => ?_, hlimit ▸ hlimits⟩
  · obtain ⟨o, ho, hcode, -⟩ := hback n r hr
    rw [hindex, ← hcode]
    exact hheld n o ho
  · obtain ⟨o, ho, hcode⟩ := hpair c n (hindex ▸ hc)
    have hi := hident n
    rw [ho] at hi
    obtain ⟨r, hr, he⟩ := Option.map_eq_some_iff.1 hi
    exact ⟨r, hr, (congrArg Prod.fst he).trans hcode⟩
  · obtain ⟨r', hr', -, hrc⟩ := hback j r hr
    obtain ⟨o', ho', -, hoc⟩ := hback k o ho
    rw [← hrc, ← hoc]
    exact hcar j k r' o' hr' ho' hne
  · obtain ⟨o, ho, -⟩ := hback n r hr
    exact hslots n o ho

theorem RacePart.refl (s : State) : RacePart s s := by
  constructor <;> simp [KeepsTrackside, KeepsPort, KeepsTimer]

/-- A scoring operation that keeps the session and the records legal. -/
theorem RacePart.of_step {s t : State} (h : RaceStep s t) (hrace : s.RaceLegal → t.RaceLegal) : RacePart s t where
  trackside := ⟨h.time, h.links, h.circuit⟩
  port := ⟨h.portPhase, h.buffer, h.reply, h.readFlag, h.sdo⟩
  timer := ⟨h.moderation, h.moderationExpiry⟩
  noted := h.noted
  joined := h.joined
  sorted := h.sorted
  caused := h.caused
  table hl := by
    refine hl.of_identity (by rw [KeyMap.wf, h.keys hl.1]; exact hl.1) (fun n => ?_) h.index h.slotLimit
    have hi := congrArg (Option.map fun x => (x.1, x.2.1)) (h.ident n)
    simpa [Option.map_map, Function.comp_def, Record.identity, State.record?] using hi
  unknown _ hu := by
    unfold CompetitorTable.unknownLegal
    rwa [h.unknown, h.index]
  race := hrace

theorem RacePart.trans {s t u : State} (h : RacePart s t) (k : RacePart t u) : RacePart s u := by
  obtain ⟨h1, h2, h3⟩ := h.trackside
  obtain ⟨k1, k2, k3⟩ := k.trackside
  obtain ⟨p1, p2, p3, p4, p5⟩ := h.port
  obtain ⟨q1, q2, q3, q4, q5⟩ := k.port
  obtain ⟨m1, m2⟩ := h.timer
  obtain ⟨n1, n2⟩ := k.timer
  constructor
  case trackside => exact ⟨k1.trans h1, k2.trans h2, k3.trans h3⟩
  case port => exact ⟨q1.trans p1, q2.trans p2, q3.trans p3, q4.trans p4, q5.trans p5⟩
  case timer => exact ⟨n1.trans m1, n2.trans m2⟩
  case noted =>
    intro n hn
    by_cases ht : t.record? n = s.record? n
    · exact k.noted n (by rwa [ht])
    · exact k.joined n (h.noted n ht)
  case joined => exact fun n hn => k.joined n (h.joined n hn)
  case sorted => exact fun hs => k.sorted (h.sorted hs)
  case caused => exact fun c hc => k.caused c (h.caused c hc)
  case table => exact fun hl => k.table (h.table hl)
  case unknown => exact fun hl hu => k.unknown (h.table hl) (h.unknown hl hu)
  case race => exact fun hr => k.race (h.race hr)

theorem RacePart.setSession (s : State) {c : Session} (h : s.RaceLegal → c.legal) : RacePart s (s.setSession c) where
  trackside := ⟨rfl, rfl, rfl⟩
  port := ⟨rfl, rfl, rfl, rfl, rfl⟩
  timer := ⟨rfl, rfl⟩
  noted _ hn := absurd rfl hn
  joined _ hn := hn
  sorted hs := hs
  caused _ hc := hc
  table hl := hl
  unknown _ hu := hu
  race hr := ⟨h hr, hr.records⟩

theorem RacePart.reorder (s : State) : RacePart s s.reorder := .of_step (.reorder s) State.RaceLegal.reorder

theorem RacePart.emptyLead (s : State) : RacePart s s.emptyLead :=
  .of_step (.setOrder s _) fun h => ⟨h.session, h.records⟩

/-! ## The unknown list (R75, R76) -/

/-- What the unknown list must satisfy beside an index (R75). -/
def UnknownList (index : KeyMap Nat) (u : List UnknownEntry) : Prop :=
  u.length ≤ 16 ∧ (u.map (·.code)).Nodup ∧
  u.Pairwise (fun a b => a.first < b.first ∨ a.first = b.first ∧ a.code < b.code) ∧
  ∀ e ∈ u, 1 ≤ e.sightings ∧ e.sightings ≤ 255 ∧ e.first ≤ e.last ∧ index.find e.code = none

theorem UnknownList.sublist {index : KeyMap Nat} {u v : List UnknownEntry} (h : UnknownList index u)
    (hv : v.Sublist u) : UnknownList index v := by
  obtain ⟨hlen, hnodup, hsorted, hall⟩ := h
  exact ⟨hv.length_le.trans hlen, hnodup.sublist (hv.map _), hsorted.sublist hv, fun e he => hall e (hv.subset he)⟩

theorem insertUnknown_perm (e : UnknownEntry) (u : List UnknownEntry) : (insertUnknown e u).Perm (e :: u) := by
  induction u with
  | nil => exact .refl _
  | cons x xs ih =>
    simp only [insertUnknown]
    split
    · exact .refl _
    · exact (ih.cons x).trans (.swap e x xs)

theorem unknownBefore_iff (a b : UnknownEntry) :
    unknownBefore a b = true ↔ a.first < b.first ∨ a.first = b.first ∧ a.code < b.code := by
  simp [unknownBefore]

theorem insertUnknown_sorted {e : UnknownEntry} {u : List UnknownEntry} (hnew : e.code ∉ u.map (·.code))
    (h : u.Pairwise fun a b => a.first < b.first ∨ a.first = b.first ∧ a.code < b.code) :
    (insertUnknown e u).Pairwise fun a b => a.first < b.first ∨ a.first = b.first ∧ a.code < b.code := by
  induction u with
  | nil => simp [insertUnknown]
  | cons x xs ih =>
    have hx := List.pairwise_cons.1 h
    simp only [insertUnknown]
    simp only [List.map_cons, List.mem_cons, not_or] at hnew
    split
    · rename_i hb
      rw [unknownBefore_iff] at hb
      refine List.pairwise_cons.2 ⟨fun y hy => ?_, h⟩
      rcases List.mem_cons.1 hy with rfl | hy
      · exact hb
      · have := hx.1 y hy
        omega
    · rename_i hb
      rw [unknownBefore_iff] at hb
      refine List.pairwise_cons.2 ⟨fun y hy => ?_, ih hnew.2 hx.2⟩
      rcases List.mem_cons.1 ((insertUnknown_perm e xs).mem_iff.1 hy) with rfl | hy
      · have := hnew.1
        omega
      · exact hx.1 y hy

theorem UnknownList.insert {index : KeyMap Nat} {u : List UnknownEntry} (h : UnknownList index u) {e : UnknownEntry}
    (hroom : u.length < 16) (hnew : e.code ∉ u.map (·.code))
    (he : 1 ≤ e.sightings ∧ e.sightings ≤ 255 ∧ e.first ≤ e.last ∧ index.find e.code = none) :
    UnknownList index (insertUnknown e u) := by
  obtain ⟨-, hnodup, hsorted, hall⟩ := h
  have hperm := insertUnknown_perm e u
  refine ⟨?_, ?_, insertUnknown_sorted hnew hsorted, fun x hx => ?_⟩
  · rw [hperm.length_eq]
    exact hroom
  · exact ((hperm.map _).nodup_iff).2 (List.nodup_cons.2 ⟨hnew, hnodup⟩)
  · rcases List.mem_cons.1 (hperm.mem_iff.1 hx) with rfl | hx
    · exact he
    · exact hall x hx

theorem dropUnknown_sublist (code : Nat) (u : List UnknownEntry) : (dropUnknown code u).Sublist u :=
  List.filter_sublist

theorem code_notMem_dropUnknown (code : Nat) (u : List UnknownEntry) : code ∉ (dropUnknown code u).map (·.code) := by
  simp [dropUnknown]

/-- A code seen in no record counts in its entry, or enters the list where there is room (R75). -/
theorem UnknownList.seen {index : KeyMap Nat} {u : List UnknownEntry} (h : UnknownList index u) {e : UnknownEntry}
    (he : e ∈ u) (l : LinkNo) (t : Nat) : UnknownList index (insertUnknown (e.seen l t) (dropUnknown e.code u)) := by
  have ⟨hlen, _, _, hall⟩ := h
  obtain ⟨hlow, hhigh, horder, hindex⟩ := hall e he
  refine (h.sublist (dropUnknown_sublist e.code u)).insert ?_ (code_notMem_dropUnknown e.code u) ?_
  · have hlt : (dropUnknown e.code u).length < u.length := by
      refine Nat.lt_of_le_of_ne (dropUnknown_sublist e.code u).length_le fun heq => ?_
      have hall := List.Sublist.eq_of_length (dropUnknown_sublist e.code u) heq
      exact code_notMem_dropUnknown e.code u (hall.symm ▸ List.mem_map_of_mem he)
    omega
  · refine ⟨Nat.le_min.2 ⟨by omega, by omega⟩, Nat.min_le_right _ _, ?_, hindex⟩
    simp only [UnknownEntry.seen]
    split <;> split <;> omega

/-- The unknown list and its full flag written, with UNKNOWN raised or not. -/
theorem RacePart.setUnknown (s : State) {u : List UnknownEntry} {full : Bool} {causes : Mask 6}
    (hu : UnknownList s.table.index s.table.unknown → UnknownList s.table.index u)
    (hc : causes = s.report.causes ∨ causes = addCause s.report.causes .unknown) :
    RacePart s { s with table := { s.table with unknown := u, unknownFull := full },
                        report := { s.report with causes := causes } } where
  trackside := ⟨rfl, rfl, rfl⟩
  port := ⟨rfl, rfl, rfl, rfl, rfl⟩
  timer := ⟨rfl, rfl⟩
  noted _ hn := absurd rfl hn
  joined _ hn := hn
  sorted hs := hs
  caused c hcause := by
    rcases hc with rfl | rfl
    · exact hcause
    · simp [hasCause_addCause, hcause]
  table hl := hl
  unknown _ h := hu h
  race hr := ⟨hr.session, hr.records⟩

theorem RacePart.seeUnknown (s : State) (l : LinkNo) {code : Nat} (t : Nat)
    (hcode : s.table.index.find code = none) : RacePart s (s.seeUnknown l code t) := by
  unfold State.seeUnknown
  split
  · rename_i e he
    obtain rfl : e.code = code := by simpa using List.find?_some he
    exact .setUnknown s (fun h => h.seen (List.mem_of_find?_eq_some he) l t) (.inl rfl)
  · rename_i hnone
    split
    · rename_i hroom
      refine .setUnknown s (fun h => h.insert hroom ?_ ⟨by simp, by simp, le_rfl, hcode⟩) (.inr rfl)
      simpa using hnone
    · split
      · exact .refl s
      · exact .setUnknown s id (.inr rfl)

/-- A closed passing that is handed on (R68). -/
theorem RacePart.handOn (s : State) (l : LinkNo) (code t : Nat) (q : Quality) : RacePart s (s.handOn l code t q) := by
  rcases s.handOn_cases l code t q with ⟨-, h⟩ | ⟨-, -, h⟩ | ⟨-, hcode, h⟩
  · rw [h]
    exact .refl s
  · exact .of_step h fun hr => hr.handOn l code t q
  · rw [h]
    exact .seeUnknown s l t hcode

theorem RacePart.forget (s : State) (code : Nat) : RacePart s (s.forget code) :=
  .setUnknown s (fun h => h.sublist (dropUnknown_sublist _ _)) (.inl rfl)

theorem RacePart.clearFull (s : State) (clear : Bool) : RacePart s (s.clearFull clear) := by
  unfold State.clearFull
  split
  · exact .setUnknown s id (.inl rfl)
  · exact .refl s

theorem RacePart.dismissAll (s : State) : RacePart s (s.setUnknown []) :=
  .setUnknown s (fun h => h.sublist (List.nil_sublist _)) (.inl rfl)

end Sys2Proof.Machine
end

section
/-! The requests on records, on the session and on the rollover, and the session's own expiries, each as a part of an event
within the competitor table, the running order and the session controller (04, 07, 08, 09). -/

namespace Sys2Proof.Machine

/-! ## Records written with their codes and car numbers (R53, R58) -/

theorem KeyMap.put_of_find {α : Type} {m : KeyMap α} (hw : m.wf) {k : Nat} {a : α} (h : m.find k = some a) :
    m.put k a = m := by
  induction m with
  | nil => simp [KeyMap.find] at h
  | cons p rest ih =>
    obtain ⟨i, b⟩ := p
    obtain ⟨hlow, hrest⟩ := List.pairwise_cons.1 hw
    simp only [KeyMap.find] at h
    simp only [KeyMap.put]
    split at h
    · rename_i hi
      cases h
      simp [hi]
    · have hk : i < k := hlow k (List.mem_map.2 ⟨(k, a), KeyMap.find_mem h, rfl⟩)
      rw [if_neg (by omega), if_neg (by omega), ih hrest h]

theorem KeyMap.find_put {α : Type} (m : KeyMap α) (k j : Nat) (a : α) :
    (m.put k a).find j = if j = k then some a else m.find j := by
  split
  · rename_i h
    rw [h, KeyMap.find_put_self]
  · exact KeyMap.find_put_ne m a ‹_›

theorem KeyMap.find_remove {α : Type} {m : KeyMap α} (hw : m.wf) (k j : Nat) :
    (m.remove k).find j = if j = k then none else m.find j := by
  split
  · rename_i h
    rw [h, KeyMap.find_remove_self hw]
  · exact KeyMap.find_remove_ne m ‹_›

/-- The index with the pair of a slot replaced by the one of a code. -/
def Reindexed (index index' : KeyMap Nat) (code n : Nat) : Prop :=
  index'.wf ∧ ∀ c, index'.find c = if c = code then some n else if index.find c = some n then none else index.find c

/-- A record written under a code and a car number that no other record holds. -/
theorem CompetitorTable.legal.write {a : CompetitorTable} (h : a.legal) {n : Nat} {r : Record} {index : KeyMap Nat}
    (hindex : Reindexed a.index index r.code n) (hcode : ∀ m, a.index.find r.code = some m → m = n)
    (hcar : ∀ m o, m ≠ n → a.records.find m = some o → o.car ≠ r.car) (hn : 1 ≤ n ∧ n ≤ 128)
    (u : List UnknownEntry) :
    CompetitorTable.legal { a with records := a.records.put n r, index := index, unknown := u } := by
  obtain ⟨hw, -, hheld, hpair, hcars, hslots, hlimits⟩ := a.legal_iff.1 h
  obtain ⟨hiw, hfind⟩ := hindex
  have hold : ∀ {j o}, j ≠ n → (a.records.put n r).find j = some o → a.records.find j = some o := fun hj ho => by
    rwa [KeyMap.find_put_ne _ _ hj] at ho
  have hnew : ∀ {o}, (a.records.put n r).find n = some o → o = r := fun ho => by
    rw [KeyMap.find_put_self] at ho
    exact (Option.some.inj ho).symm
  refine (CompetitorTable.legal_iff _).2 ⟨KeyMap.wf_put hw n r, hiw, fun j o ho => ?_, fun c j hc => ?_,
    fun j k o o' ho ho' hne => ?_, fun j o ho => ?_, hlimits⟩
  · by_cases hj : j = n
    · subst hj
      rw [hnew ho, hfind, if_pos rfl]
    · have hoc := hheld j o (hold hj ho)
      rw [hfind, if_neg fun he : o.code = r.code => hj (hcode j (he ▸ hoc)), if_neg (by simpa [hoc] using hj), hoc]
  · rw [hfind] at hc
    split at hc
    · cases hc
      exact ⟨r, KeyMap.find_put_self _ _ _, Eq.symm ‹_›⟩
    · split at hc
      · exact nomatch hc
      · obtain ⟨o, ho, hcode⟩ := hpair c j hc
        have hj : j ≠ n := fun he => ‹¬a.index.find c = some n› (he ▸ hc)
        exact ⟨o, (KeyMap.find_put_ne _ _ hj).trans ho, hcode⟩
  · by_cases hj : j = n
    · subst hj
      rw [hnew ho]
      exact (hcar k o' hne.symm (hold hne.symm ho')).symm
    · by_cases hk : k = n
      · subst hk
        rw [hnew ho']
        exact hcar j o hj (hold hj ho)
      · exact hcars j k o o' (hold hj ho) (hold hk ho') hne
  · by_cases hj : j = n
    · exact hj ▸ hn
    · exact hslots j o (hold hj ho)

/-- A slot freed with its code (R66). -/
theorem CompetitorTable.legal.free {a : CompetitorTable} (h : a.legal) {n : Nat} {r : Record}
    (hr : a.records.find n = some r) :
    CompetitorTable.legal { a with records := a.records.remove n, index := a.index.remove r.code } := by
  obtain ⟨hw, hiw, hheld, hpair, hcars, hslots, hlimits⟩ := a.legal_iff.1 h
  have hold : ∀ {j o}, (a.records.remove n).find j = some o → j ≠ n ∧ a.records.find j = some o := fun ho => by
    rw [KeyMap.find_remove hw] at ho
    split at ho
    · exact nomatch ho
    · exact ⟨‹_›, ho⟩
  refine (CompetitorTable.legal_iff _).2 ⟨KeyMap.wf_remove hw n, KeyMap.wf_remove hiw _, fun j o ho => ?_,
    fun c j hc => ?_, fun j k o o' ho ho' hne => hcars j k o o' (hold ho).2 (hold ho').2 hne,
    fun j o ho => hslots j o (hold ho).2, hlimits⟩
  · obtain ⟨hj, ho⟩ := hold ho
    have hoc := hheld j o ho
    have hne : o.code ≠ r.code := fun he => hj (Option.some.inj (hoc.symm.trans (he ▸ hheld n r hr)))
    exact (KeyMap.find_remove_ne _ hne).trans hoc
  · rw [KeyMap.find_remove hiw] at hc
    split at hc
    · exact nomatch hc
    · obtain ⟨o, ho, rfl⟩ := hpair c j hc
      have hj : j ≠ n := by
        rintro rfl
        exact ‹¬o.code = r.code› (congrArg Record.code (Option.some.inj (ho.symm.trans hr)))
      exact ⟨o, (KeyMap.find_remove_ne _ hj).trans ho, rfl⟩

/-- A record written with the index and the unknown list that go with it. -/
theorem RacePart.rewrite (s : State) (n : Nat) {r : Record} {index : KeyMap Nat} {u : List UnknownEntry}
    (htable : s.table.legal →
      CompetitorTable.legal { s.table with records := s.table.records.put n r, index := index, unknown := u })
    (hunknown : s.table.legal → UnknownList s.table.index s.table.unknown → UnknownList index u)
    (hrace : s.RaceLegal → r.legal) :
    RacePart s (((s.putRecord n r).setIndex index).setUnknown u) := by
  have hput := fun h : s.RaceLegal => h.putRecord n (hrace h)
  rcases s.putRecord_eq n r with ⟨he, hr⟩ | he
  · rw [he] at hput ⊢
    refine ⟨⟨rfl, rfl, rfl⟩, ⟨rfl, rfl, rfl, rfl, rfl⟩, ⟨rfl, rfl⟩, fun m hm => absurd rfl hm, fun m hm => hm,
      fun hs => hs, fun c hc => hc, fun hl => ?_, hunknown, fun hl => ⟨hl.session, hl.records⟩⟩
    have hw : s.table.records.wf := hl.1
    have hl' := htable hl
    rwa [KeyMap.put_of_find hw hr] at hl'
  · have hother : ∀ m, m ≠ n → (s.putRecord n r).record? m = s.record? m := fun m hm => s.putRecord_record_ne r hm
    rw [he] at hput hother ⊢
    refine ⟨⟨rfl, rfl, rfl⟩, ⟨rfl, rfl, rfl, rfl, rfl⟩, ⟨rfl, rfl⟩, fun m hm => ?_,
      fun m hm => (mem_joinSlot n m _).2 (.inr hm), joinSlot_sorted n, fun c hc => hc, htable, hunknown,
      fun hl => ⟨hl.session, (hput hl).records⟩⟩
    exact (mem_joinSlot n m _).2 (.inl (by_contra fun hne => hm (hother m hne)))

/-- A record written with its code and its car number as they were. -/
theorem RacePart.putRecord {s : State} {n : Nat} {r r' : Record} (hr : s.record? n = some r)
    (hcode : r'.code = r.code) (hcar : r'.car = r.car) (hrace : s.RaceLegal → r'.legal) :
    RacePart s (s.putRecord n r') := by
  have h : RacePart s (((s.putRecord n r').setIndex s.table.index).setUnknown s.table.unknown) := by
    refine .rewrite s n (fun hl => ?_) (fun _ h => h) hrace
    refine hl.of_identity (KeyMap.wf_put hl.1 n r') (fun m => ?_) rfl rfl
    rw [KeyMap.find_put]
    split
    · rename_i he
      subst he
      simp only [State.record?] at hr
      simp [hr, hcode, hcar]
    · rfl
  have he : ((s.putRecord n r').setIndex s.table.index).setUnknown s.table.unknown = s.putRecord n r' := by
    rcases s.putRecord_eq n r' with ⟨he, -⟩ | he <;> rw [he] <;> rfl
  rwa [he] at h

/-! ## ENROL, AMEND, RELEASE (R61, R62, R66) -/

@[simp] theorem State.putRecord_unknown (s : State) (n : Nat) (r : Record) :
    (s.putRecord n r).table.unknown = s.table.unknown := by
  rcases s.putRecord_eq n r with ⟨he, -⟩ | he <;> rw [he]
  rfl

@[simp] theorem State.putRecord_index (s : State) (n : Nat) (r : Record) :
    (s.putRecord n r).table.index = s.table.index := by
  rcases s.putRecord_eq n r with ⟨he, -⟩ | he <;> rw [he]
  rfl

theorem newRecord_legal (a : EnrolArgs) (session lines : Nat) : (newRecord a session lines).legal :=
  Record.legal_fresh (.inl rfl) rfl rfl rfl rfl rfl

/-- A code that no record holds has no pair in the index (R58). -/
theorem State.find_index_of_codeHeldBy {s : State} (h : s.table.legal) (code : Nat) :
    s.table.index.find code = s.codeHeldBy code := by
  obtain ⟨hw, -, hheld, hpair, -⟩ := s.table.legal_iff.1 h
  unfold State.codeHeldBy
  cases hf : s.table.records.find? fun p => decide (p.2.code = code) with
  | some p =>
    have hcode : p.2.code = code := by simpa using List.find?_some hf
    rw [← hcode]
    exact hheld p.1 p.2 (KeyMap.find_of_mem hw (List.mem_of_find?_eq_some hf))
  | none =>
    refine Option.eq_none_iff_forall_ne_some.2 fun n hn => ?_
    obtain ⟨r, hr, hcode⟩ := hpair code n hn
    simpa [hcode] using List.find?_eq_none.1 hf (n, r) (KeyMap.find_mem hr)

theorem State.carHeldBy_none {s : State} {car : Nat} (h : s.carHeldBy car = none) {n : Nat} {r : Record}
    (hr : s.record? n = some r) : r.car ≠ car := by
  simpa using List.find?_eq_none.1 (Option.map_eq_none_iff.1 h) (n, r) (KeyMap.find_mem hr)

theorem State.freeSlotFor_some {s : State} {n : Nat} (h : s.freeSlotFor = some n) :
    s.record? n = none ∧ 1 ≤ n ∧ n ≤ s.table.slotLimit := by
  have hmem := List.mem_of_find?_eq_some h
  have hfree := List.find?_some h
  simp only [List.mem_map, List.mem_range] at hmem
  obtain ⟨i, hi, rfl⟩ := hmem
  exact ⟨by simpa using hfree, by omega, by omega⟩

theorem UnknownList.forget {index index' : KeyMap Nat} {u : List UnknownEntry} (h : UnknownList index u) {code n : Nat}
    (hindex : Reindexed index index' code n) : UnknownList index' (dropUnknown code u) := by
  obtain ⟨hlen, hnodup, hsorted, hall⟩ := h.sublist (dropUnknown_sublist code u)
  refine ⟨hlen, hnodup, hsorted, fun e he => ?_⟩
  obtain ⟨h1, h2, h3, h4⟩ := hall e he
  have hne : e.code ≠ code := fun hc => code_notMem_dropUnknown code u (List.mem_map.2 ⟨e, he, hc⟩)
  exact ⟨h1, h2, h3, by rw [hindex.2, if_neg hne, h4]; rfl⟩

theorem RacePart.enrol {s : State} {a : EnrolArgs} {n : Nat} (hcode : s.codeHeldBy a.code = none)
    (hcar : s.carHeldBy a.car = none) (hn : s.freeSlotFor = some n) : RacePart s (s.enrol a n) := by
  obtain ⟨hfree, hlow, hhigh⟩ := State.freeSlotFor_some hn
  have hindex : s.table.legal → Reindexed s.table.index (s.table.index.put a.code n) a.code n := fun hl => by
    obtain ⟨-, hiw, -, hpair, -⟩ := s.table.legal_iff.1 hl
    refine ⟨KeyMap.wf_put hiw _ _, fun c => ?_⟩
    rw [KeyMap.find_put, if_neg (c := s.table.index.find c = some n)]
    intro hc
    obtain ⟨r, hr, -⟩ := hpair c n hc
    exact nomatch hfree.symm.trans hr
  unfold State.enrol State.forget
  rw [State.setIndex_table, State.putRecord_unknown]
  refine .rewrite s n (fun hl => ?_) (fun hl hu => hu.forget (hindex hl)) (fun _ => newRecord_legal a _ _)
  · refine hl.write (hindex hl) (fun m hm => ?_) (fun m o _ ho => State.carHeldBy_none hcar ho) ?_ _
    · exact nomatch hcode.symm.trans ((State.find_index_of_codeHeldBy hl a.code).symm.trans hm)
    · obtain ⟨-, -, -, -, -, -, -, hlimit⟩ := hl
      exact ⟨hlow, hhigh.trans hlimit⟩

theorem State.carHeldBy_of_record {s : State} (h : s.table.legal) {n : Nat} {r : Record} (hr : s.record? n = some r) :
    s.carHeldBy r.car = some n := by
  obtain ⟨hw, -, -, -, hcars, -⟩ := s.table.legal_iff.1 h
  obtain ⟨p, hp⟩ : ∃ p, s.table.records.find? (fun p => decide (p.2.car = r.car)) = some p :=
    Option.isSome_iff_exists.1 (List.find?_isSome.2 ⟨(n, r), KeyMap.find_mem hr, by simp⟩)
  have hfind := KeyMap.find_of_mem hw (List.mem_of_find?_eq_some hp)
  have hcar : p.2.car = r.car := by simpa using List.find?_some hp
  have hslot : p.1 = n := by_contra fun hne => hcars p.1 n p.2 r hfind hr hne hcar
  rw [State.carHeldBy, hp, Option.map_some, hslot]

/-- The index as it stands, for a record that keeps its code. -/
theorem Reindexed.kept {s : State} (h : s.table.legal) {n : Nat} {r : Record} (hr : s.record? n = some r) :
    Reindexed s.table.index s.table.index r.code n := by
  obtain ⟨-, hiw, hheld, hpair, -⟩ := s.table.legal_iff.1 h
  refine ⟨hiw, fun c => ?_⟩
  split
  · rename_i hc
    rw [hc]
    exact hheld n r hr
  · split
    · rename_i hc hn
      obtain ⟨o, ho, hoc⟩ := hpair c n hn
      exact absurd (hoc.symm.trans (congrArg Record.code (Option.some.inj (ho.symm.trans hr)))) hc
    · rfl

/-- The index with the pair of a record moved to another code (R62). -/
theorem Reindexed.moved {s : State} (h : s.table.legal) {n : Nat} {r : Record} (hr : s.record? n = some r) (c : Nat) :
    Reindexed s.table.index ((s.table.index.remove r.code).put c n) c n := by
  obtain ⟨-, hiw, hheld, hpair, -⟩ := s.table.legal_iff.1 h
  refine ⟨KeyMap.wf_put (KeyMap.wf_remove hiw _) _ _, fun d => ?_⟩
  rw [KeyMap.find_put, KeyMap.find_remove hiw]
  refine if_congr Iff.rfl rfl (if_congr ⟨fun hd => ?_, fun hd => ?_⟩ rfl rfl)
  · rw [hd]
    exact hheld n r hr
  · obtain ⟨o, ho, hoc⟩ := hpair d n hd
    exact hoc.symm.trans (congrArg Record.code (Option.some.inj (ho.symm.trans hr)))

theorem State.recode_keep (t : State) (n : Nat) {old : Nat} {new : Option Nat} (h : new.getD old = old) :
    t.recode n old new = t := by
  cases new with
  | none => rfl
  | some c => exact if_pos h

theorem RacePart.amend {s : State} {a : AmendArgs} {r : Record} (hr : s.record? a.slot = some r)
    (hcode : a.code.any (fun c => heldByOther (s.codeHeldBy c) a.slot) = false)
    (hcar : a.car.any (fun n => heldByOther (s.carHeldBy n) a.slot) = false) :
    RacePart s ((s.putRecord a.slot (r.amended a)).recode a.slot r.code a.code) := by
  have hlegal : s.RaceLegal → (r.amended a).legal := fun h =>
    (h.records.find hr).of_standing rfl rfl rfl rfl rfl (.inl rfl)
  have hcars : s.table.legal → ∀ m o, m ≠ a.slot → s.record? m = some o → o.car ≠ (r.amended a).car := by
    intro hl m o hm ho he
    cases hc : a.car with
    | none =>
      have hmr := State.carHeldBy_of_record hl hr
      have hmo := State.carHeldBy_of_record hl ho
      rw [he, Record.amended, hc] at hmo
      exact hm (Option.some.inj (hmo.symm.trans hmr))
    | some n =>
      have hmo := State.carHeldBy_of_record hl ho
      rw [he, Record.amended, hc] at hmo
      simp only [Option.getD_some] at hmo
      simp [hc, hmo, heldByOther, hm] at hcar
  have hslot : s.table.legal → 1 ≤ a.slot ∧ a.slot ≤ 128 := fun hl => by
    obtain ⟨-, -, -, -, -, hslots, -⟩ := s.table.legal_iff.1 hl
    exact hslots _ r hr
  by_cases hsame : a.code.getD r.code = r.code
  · rw [State.recode_keep _ _ hsame]
    have h : RacePart s (((s.putRecord a.slot (r.amended a)).setIndex s.table.index).setUnknown s.table.unknown) := by
      refine .rewrite s a.slot (fun hl => ?_) (fun _ h => h) hlegal
      obtain ⟨-, -, hheld, -⟩ := s.table.legal_iff.1 hl
      have hkept : (r.amended a).code = r.code := hsame
      refine hl.write (hkept ▸ Reindexed.kept hl hr) (fun m hm => ?_) (hcars hl) (hslot hl) _
      rw [hkept, hheld _ r hr] at hm
      exact (Option.some.inj hm).symm
    rw [← s.putRecord_index a.slot (r.amended a), ← s.putRecord_unknown a.slot (r.amended a)] at h
    exact h
  · obtain ⟨c, hc⟩ : ∃ c, a.code = some c := by
      cases hc : a.code with
      | none => simp [hc] at hsame
      | some c => exact ⟨c, rfl⟩
    simp only [hc, Option.getD_some] at hsame
    have hnew : (r.amended a).code = c := by simp [Record.amended, hc]
    rw [hc, State.recode]
    simp only [if_neg hsame, State.forget, State.setIndex_table, State.putRecord_unknown, State.putRecord_index]
    refine .rewrite s a.slot (fun hl => ?_) (fun hl hu => hu.forget (Reindexed.moved hl hr c)) hlegal
    refine hl.write (hnew ▸ Reindexed.moved hl hr c) (fun m hm => ?_) (hcars hl) (hslot hl) _
    rw [hnew, State.find_index_of_codeHeldBy hl] at hm
    simpa [hc, hm, heldByOther] using hcode

theorem RacePart.release {s : State} {n : Nat} {r : Record} (hr : s.record? n = some r) :
    RacePart s ((s.freeSlot n).setIndex (s.table.index.remove r.code)) where
  trackside := ⟨rfl, rfl, rfl⟩
  port := ⟨rfl, rfl, rfl, rfl, rfl⟩
  timer := ⟨rfl, rfl⟩
  noted m hm := (mem_joinSlot n m _).2 (.inl (by_contra fun hne => hm (KeyMap.find_remove_ne _ hne)))
  joined m hm := (mem_joinSlot n m _).2 (.inr hm)
  sorted := joinSlot_sorted n
  caused _ hc := hc
  table hl := hl.free hr
  unknown hl hu := by
    obtain ⟨-, hiw, -⟩ := s.table.legal_iff.1 hl
    obtain ⟨hlen, hnodup, hsorted, hall⟩ := hu
    refine ⟨hlen, hnodup, hsorted, fun e he => ?_⟩
    obtain ⟨h1, h2, h3, h4⟩ := hall e he
    refine ⟨h1, h2, h3, ?_⟩
    change (s.table.index.remove r.code).find e.code = none
    rw [KeyMap.find_remove hiw, h4, ite_self]
  race h := ⟨h.session, h.records.remove n⟩

end Sys2Proof.Machine
end

section
/-! The requests that write one record (R63 to R65, R67, R127), the session controller (R130 to R143) and the rollover (R148
to R153), and the session's expiries, as parts of an event. -/

namespace Sys2Proof.Machine

/-! ## One record written (R63 to R65, R67, R127) -/

theorem State.RaceLegal.leftField {s : State} (h : s.RaceLegal) (was : RecState) : (s.leftField was).RaceLegal := by
  unfold State.leftField
  split
  · exact h.fieldIn
  · exact h

/-- A record's state changed by a request, with the close test of R57. -/
theorem RacePart.putAndLeave {s : State} {n : Nat} {r r' : Record} (hr : s.record? n = some r)
    (hi : r'.identity = r.identity) (hl : r.legal → r'.legal) (was : RecState) :
    RacePart s ((s.putRecord n r').leftField was) :=
  .of_step ((RaceStep.putRecord hr hi).trans (.leftField _ was)) fun h =>
    (h.putRecord n (hl (h.records.find hr))).leftField was

theorem RacePart.putSame {s : State} {n : Nat} {r r' : Record} (hr : s.record? n = some r)
    (hi : r'.identity = r.identity) (hl : r.legal → r'.legal) : RacePart s (s.putRecord n r') :=
  .of_step (RaceStep.putRecord hr hi) fun h => h.putRecord n (hl (h.records.find hr))

theorem Record.closePit_eq (r : Record) : r.closePit = { r with pit := r.closePit.pit } := by
  unfold Record.closePit
  split <;> rfl

/-- A record that leaves the pit lane by a request has no open pit record (R63, R65). -/
theorem Record.legal.closePit {r : Record} (h : r.legal) :
    (∀ p ∈ r.closePit.pit, p.isOpen = false) ∧ (r.state = .pit → r.closePit.pit.isSome = true) := by
  unfold Record.closePit
  split
  · rename_i hs
    obtain ⟨-, -, -, hpit, -⟩ := h
    obtain ⟨p, hp, -⟩ := hpit.1 hs
    refine ⟨fun q hq => ?_, fun _ => by simp [Option.mem_def.1 hp]⟩
    obtain ⟨q0, -, rfl⟩ := Option.mem_map.1 hq
    rfl
  · exact ⟨h.noOpenPit ‹_›, fun hs => absurd hs ‹_›⟩

theorem Record.legal.retire {r : Record} (h : r.legal) (hm : mayRetire r.state = true) : r.retire.legal := by
  obtain ⟨hclosed, hsome⟩ := h.closePit
  obtain ⟨-, -, -, -, -, hfresh, hlatest⟩ := h
  simp only [mayRetire, Bool.and_eq_true, decide_eq_true_eq] at hm
  unfold Record.retire
  rw [Record.closePit_eq]
  refine ⟨by simp, by simpa using hm.1, by simpa using hm.2, ?_, ?_, ?_, ?_⟩
  · simpa using hclosed
  · simpa using hsome
  · rintro (hs | hs)
    · exact nomatch hs
    · exact hfresh (.inl (Option.some.inj hs))
  · rintro (hs | hs)
    · exact nomatch hs
    · exact hlatest (.inl hs)

theorem Record.legal.exclude {r : Record} (h : r.legal) : r.exclude.legal := by
  obtain ⟨hclosed, -⟩ := h.closePit
  unfold Record.exclude
  rw [Record.closePit_eq]
  exact ⟨by simp, by simp, by simp, by simpa using hclosed, by simp, by simp, by simp [stateInOrder]⟩

/-- A RETIRED record back in the state it was retired from (R64). -/
theorem Record.legal.reinstate {r : Record} (h : r.legal) (hs : r.state = .retired) :
    (r.reinstate (r.retiredFrom.getD .enrolled)).legal := by
  have hopen := h.noOpenPit (by simp [hs])
  obtain ⟨hfrom, hret, hexc, -, hpit, hfresh, hlatest⟩ := h
  obtain ⟨st, hst⟩ := Option.isSome_iff_exists.1 (hfrom.1 hs)
  rw [hst, Option.getD_some]
  rw [hst] at hret hexc hpit hfresh hlatest
  refine ⟨by simpa [Record.reinstate] using hret, by simp [Record.reinstate], by simp [Record.reinstate], ?_,
    by simp [Record.reinstate], ?_, ?_⟩
  · by_cases hp : st = .pit
    · obtain ⟨p, hp'⟩ := Option.isSome_iff_exists.1 (hpit (congrArg some hp))
      simp [Record.reinstate, hp, hp', PitRecord.reopened]
    · simpa [Record.reinstate, hp] using hopen
  · rintro (he | he)
    · exact hfresh (.inr (congrArg some he))
    · exact nomatch he
  · rintro (he | he)
    · exact hlatest (.inr he)
    · exact nomatch he

theorem Record.legal.adjusted {r : Record} (h : r.legal) (a : AdjustArgs) : (r.adjusted a).legal :=
  h.of_standing rfl rfl rfl rfl rfl (.inl rfl)

theorem Record.legal.readOff {r : Record} (h : r.legal) (clear : Bool) : (r.readOff clear).legal := by
  unfold Record.readOff
  split
  · exact h.of_standing rfl rfl rfl rfl rfl (.inl rfl)
  · exact h

theorem Record.identity_readOff (r : Record) (clear : Bool) : (r.readOff clear).identity = r.identity := by
  unfold Record.readOff
  split <;> rfl

theorem Record.legal.remapped {r : Record} (h : r.legal) (lines : Nat) : (r.remapped lines).legal := by
  refine h.of_standing rfl rfl rfl rfl rfl ?_
  unfold Record.remapped
  dsimp only
  split
  · exact .inr rfl
  · exact .inl rfl

@[simp] theorem State.updAll_session (s : State) (f : Nat → Record → Record) : (s.updAll f).session = s.session := by
  rw [State.updAll_eq]

/-- The records rebuilt for a new line map (R20). -/
theorem RacePart.remapRecords (s : State) : RacePart s s.remapRecords := by
  unfold State.remapRecords
  split
  · exact .of_step (.updAll s _ fun _ _ => rfl) fun h =>
      ⟨by rw [State.updAll_session]; exact h.session, h.records.updAll fun _ _ hr => hr.remapped _⟩
  · exact .refl s

/-- The slot limit written within its range (R60). -/
theorem RacePart.setCapacity (s : State) {n : Nat} (hn : slotOk n = true) :
    RacePart s { s with table := { s.table with slotLimit := n } } where
  trackside := ⟨rfl, rfl, rfl⟩
  port := ⟨rfl, rfl, rfl, rfl, rfl⟩
  timer := ⟨rfl, rfl⟩
  noted _ hm := absurd rfl hm
  joined _ hm := hm
  sorted hs := hs
  caused _ hc := hc
  table hl := by
    obtain ⟨h1, h2, h3, h4, h5, h6, -, -⟩ := hl
    simp only [slotOk, within, Bool.and_eq_true, decide_eq_true_eq] at hn
    exact ⟨h1, h2, h3, h4, h5, h6, hn⟩
  unknown _ hu := hu
  race h := ⟨h.session, h.records⟩

/-! ## The session controller (R130 to R143) -/

theorem AllLegal.flagLaps {s : State} (h : AllLegal s.table.records) (f : LapFlag) :
    AllLegal (s.flagLaps f).table.records := h.updAll fun _ r hr => by
  split
  · exact hr.of_standing rfl rfl rfl rfl rfl (.inl rfl)
  · exact hr

@[simp] theorem State.flagLaps_session (s : State) (f : LapFlag) : (s.flagLaps f).session = s.session :=
  s.updAll_session _

theorem RacePart.flagLaps (s : State) (f : LapFlag) : RacePart s (s.flagLaps f) :=
  .of_step (.flagLaps s f) fun h => ⟨by rw [State.flagLaps_session]; exact h.session, h.records.flagLaps f⟩

theorem RacePart.sessionSetup (s : State) (c : SessionSetup) :
    RacePart s (s.setSession { s.session with setup := some c }) :=
  .setSession s fun h => by
    obtain ⟨h1, -, hrest⟩ := h.session
    exact ⟨h1, fun _ => rfl, hrest⟩

theorem RacePart.arm {s : State} (hp : s.session.phase = .idle) (hc : s.canArm = true) :
    RacePart s (s.emptyLead.setSession s.session.armed) := by
  refine (RacePart.emptyLead s).trans (.setSession _ fun h => ?_)
  have hsetup : s.session.setup.isSome = true := by
    simp only [State.canArm, State.setupFits, Bool.and_eq_true] at hc
    cases hs : s.session.setup <;> simp_all
  have hl : s.session.legal := h.session
  simp_all [Session.legal, Session.armed, underWay]

theorem RacePart.setTimeLimit {s : State} (hp : s.session.phase = .green ∨ s.session.phase = .caution) (e : Nat) :
    RacePart s (s.setTimeLimit e) :=
  .of_step (.setTimeLimit s e) fun h =>
    ⟨State.setTimeLimit_legal h.session hp e, by rw [State.setTimeLimit_table]; exact h.records⟩

theorem RacePart.goGreen {s : State} (hp : s.session.phase = .armed) (source : GreenSource) :
    RacePart s (s.goGreen source) := by
  have hset := RacePart.setSession s (c := { s.session with
    phase := .green, greenTime := some s.now, greenSource := some source }) fun h => by
      have hl := h.session
      simp_all [Session.legal, underWay]
  unfold State.goGreen
  dsimp only
  split
  · exact hset.trans (.setTimeLimit (.inl rfl) _)
  · exact hset

theorem RacePart.goCaution {s : State} (hp : s.session.phase = .green) : RacePart s s.goCaution := by
  refine RacePart.trans (.setSession s fun h => ?_) (.flagLaps _ _)
  have hl := h.session
  simp_all [Session.legal, underWay]

theorem RacePart.clearCaution {s : State} (hp : s.session.phase = .caution) :
    RacePart s (s.setSession { s.session with phase := .green }) :=
  .setSession s fun h => by
    have hl := h.session
    simp_all [Session.legal, underWay]

theorem RacePart.goSuspended {s : State} (hp : runningPhase s.session.phase = true) : RacePart s s.goSuspended := by
  have hp' : s.session.phase = .green ∨ s.session.phase = .caution := by simpa [runningPhase] using hp
  refine .setSession s fun h => ?_
  have hl := h.session
  rcases hp' with hp' | hp' <;> simp_all [Session.legal, underWay]

/-- A suspended session that has resumed (R138). -/
theorem Session.legal.resumed {c : Session} (h : c.legal) (hp : c.phase = .suspended) (now total : Nat) {back : Phase}
    (hb : back = .green ∨ back = .caution) :
    Session.legal { c with
      phase := back, suspension := c.suspension.map fun p => { p with stop := some now }, totalSuspended := total,
      resumeState := none } := by
  rcases hb with rfl | rfl <;> simp_all [Session.legal, underWay]

theorem Session.legal.resumeState_running {c : Session} (h : c.legal) (hp : c.phase = .suspended) :
    c.resumeState.getD .green = .green ∨ c.resumeState.getD .green = .caution := by
  obtain ⟨-, -, hresume, hback, -⟩ := h
  obtain ⟨p, hsome⟩ := Option.isSome_iff_exists.1 (hresume.1 hp)
  rw [hsome]
  exact hback p hsome

theorem RacePart.restoreTimeLimit {s : State} (hp : s.session.phase = .green ∨ s.session.phase = .caution) :
    RacePart s s.restoreTimeLimit := by
  unfold State.restoreTimeLimit
  split
  · split
    · exact .refl s
    · exact .setTimeLimit hp _
  · exact .refl s

theorem RaceStep.endSuspension (s : State) : RaceStep s s.endSuspension := .setSession s _ rfl rfl

theorem RaceStep.restoreTimeLimit (s : State) : RaceStep s s.restoreTimeLimit := by
  unfold State.restoreTimeLimit
  split
  · split
    · exact .refl s
    · exact .setTimeLimit s _
  · exact .refl s

theorem State.endSuspension_legal {s : State} (h : s.session.legal) (hp : s.session.phase = .suspended) {back : Phase}
    (hb : back = .green ∨ back = .caution) : Session.legal { s.endSuspension.session with phase := back } :=
  h.resumed hp _ _ hb

theorem RacePart.goResumed {s : State} (hp : s.session.phase = .suspended) : RacePart s s.goResumed := by
  unfold State.goResumed
  dsimp only
  refine .of_step ?_ fun h => ?_
  · refine ((RaceStep.endSuspension s).trans ?_).trans (.restoreTimeLimit _)
    refine RaceStep.trans ?_ (.flagLaps _ _)
    exact .setSession _ _ rfl rfl
  · have hback := Session.legal.resumeState_running h.session hp
    refine (RacePart.restoreTimeLimit (by rw [State.flagLaps_session]; exact hback)).race ⟨?_, ?_⟩
    · rw [State.flagLaps_session]
      exact State.endSuspension_legal h.session hp hback
    · refine AllLegal.flagLaps ?_ _
      exact h.records

/-! ## The chequer and the close (R139, R141 to R143) -/

theorem State.enterChequered_legal_of {s : State} (h : Session.legal { s.session with phase := .green })
    (cause : ChequerCause) (slot : Option Nat) : (s.enterChequered cause slot).session.legal :=
  State.fieldIn_legal (s := s.setSession _) (h.chequer (.inl rfl) s.now cause slot _)

theorem RacePart.goChequered {s : State}
    (hp : (runningPhase s.session.phase || decide (s.session.phase = .suspended)) = true) :
    RacePart s s.goChequered := by
  unfold State.goChequered
  split
  · rename_i hsus
    refine .of_step (((RaceStep.endSuspension s).trans (.flagLaps _ _)).trans (.enterChequered _ _ _)) fun h => ⟨?_, ?_⟩
    · exact State.enterChequered_legal_of
        (by rw [State.flagLaps_session]; exact State.endSuspension_legal h.session hsus (.inl rfl)) _ _
    · rw [State.enterChequered_table]
      exact AllLegal.flagLaps (s := s.endSuspension) h.records _
  · rename_i hsus
    have hrun : s.session.phase = .green ∨ s.session.phase = .caution := by simpa [runningPhase, hsus] using hp
    exact .of_step (.enterChequered s _ _) fun h =>
      ⟨State.enterChequered_legal h.session hrun _ _, by rw [State.enterChequered_table]; exact h.records⟩

/-- A session closed by request, from any state under way (R143). -/
theorem State.cutClose_legal {s : State} (h : s.session.legal) (hp : underWay s.session.phase = true)
    (hs : s.session.phase ≠ .suspended) :
    (s.setSession { s.session with timeLimitExpiry := none, finishPending := false }).closeSession.session.legal := by
  cases hphase : s.session.phase <;> simp_all [Session.legal, State.closeSession, underWay]

theorem RaceStep.cutClose (s : State) :
    RaceStep s (s.setSession { s.session with timeLimitExpiry := none, finishPending := false }).closeSession := by
  refine RaceStep.trans ?_ (.closeSession _)
  exact .setSession _ _ rfl rfl

theorem RacePart.goClosed {s : State} (hp : underWay s.session.phase = true) : RacePart s s.goClosed := by
  unfold State.goClosed
  dsimp only
  split
  · rename_i hsus
    refine .of_step ((RaceStep.endSuspension s).trans (.cutClose _)) fun h => ⟨?_, h.records⟩
    have hresumed := State.endSuspension_legal h.session hsus (.inl rfl)
    exact State.cutClose_legal (s := s.endSuspension.setSession { s.endSuspension.session with phase := .green })
      hresumed rfl (by simp)
  · rename_i hsus
    exact .of_step (.cutClose _) fun h => ⟨State.cutClose_legal h.session hp hsus, h.records⟩

theorem RacePart.timeLimitHappens {s : State} (hp : runningPhase s.session.phase = true) :
    RacePart s s.timeLimitHappens :=
  .of_step (.timeLimitHappens s) fun h =>
    ⟨State.timeLimitHappens_legal h.session (by simpa [runningPhase] using hp),
      by rw [State.timeLimitHappens_table]; exact h.records⟩

theorem RacePart.closeSession {s : State} (hp : s.session.phase = .chequered) : RacePart s s.closeSession :=
  .of_step (.closeSession s) fun h => ⟨h.session.close hp, h.records⟩

/-! ## Rollover (R148 to R153) -/

/-- A run that completes leaves the session IDLE (R149). -/
theorem RacePart.completeRollover {s : State} (hp : s.session.phase = .rolling) : RacePart s s.completeRollover :=
  .setSession s fun h => by
    have hl := h.session
    simp_all [Session.legal, underWay]

theorem RacePart.rollEnd {s : State} (hp : s.session.phase = .rolling) : RacePart s s.rollEnd := by
  unfold State.rollEnd
  split
  · exact .completeRollover hp
  · exact .refl s

theorem RacePart.goRolling {s : State} (hp : s.session.phase = .idle ∨ s.session.phase = .closed) (a : RolloverArgs) :
    RacePart s (s.goRolling a) := by
  refine ((RacePart.emptyLead s).trans (.setSession _ fun h => ?_)).trans (.rollEnd rfl)
  have hl : s.session.legal := h.session
  have hn : nextNumber s.session.number ≤ 255 := Nat.le_of_lt_succ (Nat.mod_lt _ (by decide))
  rcases hp with hp | hp <;> simp_all [Session.legal, Session.rolling, underWay]

theorem Record.rolled_legal (r : Record) (c : Cursor) (number lines : Nat) : (r.rolled c number lines).legal := by
  have hstate : rolledState r.state c.carry = .enrolled ∨ rolledState r.state c.carry = .excluded := by
    unfold rolledState
    split
    · exact .inr rfl
    · exact .inl rfl
  unfold Record.rolled
  dsimp only
  split <;> exact Record.legal_fresh hstate rfl rfl rfl rfl rfl

theorem Record.rolled_code_car (r : Record) (c : Cursor) (number lines : Nat) :
    (r.rolled c number lines).code = r.code ∧ (r.rolled c number lines).car = r.car := by
  unfold Record.rolled
  dsimp only
  split <;> exact ⟨rfl, rfl⟩

/-- One record step, with what ends the run (R149, R150). -/
theorem RacePart.rollStep {s : State} (hp : s.session.phase = .rolling) (c : Cursor) : RacePart s (s.rollStep c) := by
  unfold State.rollStep
  split
  · split
    · rename_i n _ r hr
      obtain ⟨hcode, hcar⟩ := r.rolled_code_car c s.session.number s.lineCount
      unfold State.rollRecord
      dsimp only
      refine ((RacePart.putRecord hr hcode hcar fun _ => r.rolled_legal _ _ _).trans
        (.setSession _ fun h => ?_)).trans (.rollEnd ((congrArg Session.phase (State.putRecord_session _ _ _)).trans hp))
      obtain ⟨h1, h2, h3, h4, h5, h6, h7, h8, -, hrest⟩ := h.session
      exact ⟨h1, h2, h3, h4, h5, h6, h7, h8, fun _ => rfl, hrest⟩
    · exact .refl s
  · exact .completeRollover hp

theorem RacePart.haltRollover {s : State} (hp : s.session.phase = .rolling) : RacePart s s.haltRollover :=
  .setSession s fun h => by
    have hl := h.session
    simp_all [Session.legal, underWay]

end Sys2Proof.Machine
end

section
/-! What every part of an event, and every event, does to the blocks: the relations `Part` and `Move` of a part of an event,
`Event` and `Did` of a whole one, how they join, and how the end of an event (R57, R116, R161, R163) takes the first to
the second. The statements that every step keeps something (01 to 10) are read off `Did`. -/

namespace Sys2Proof.Machine

/-! ## The relations -/

/-- The clock as it was, the tables of 01 kept, and an absence expiry not made due. -/
structure TimeStep (c d : TimeBase) : Prop where
  now : d.now = c.now
  legal : c.legal → d.legal
  absence : c.absenceDue = false → d.absenceDue = false

/-- What the configuration lock covers is as it was (R16). -/
structure SameConfig (s t : State) : Prop where
  circuit : t.circuit = s.circuit
  role : ∀ l, (t.link l).role = (s.link l).role
  linePos : ∀ l, (t.link l).linePos = (s.link l).linePos
  latency : ∀ l, (t.link l).settings.latency = (s.link l).settings.latency

/-- The part of the reporting unit's legality that no end of an event restores: the port, its reply and the moderation
setting (10, table of state). -/
def Reporting.steady (r : Reporting) : Prop :=
  r.moderation ≤ 100 ∧ r.portPhase = .idle ∧ (r.buffer = .empty ↔ r.reply = none) ∧ (r.readFlag = true → r.buffer = .ready)

/-- A flag of a link that went from clear to set left LOOPS pending (R32). -/
def Flagged (s t : State) : Prop :=
  ∀ l f, hasFlag (s.link l).flags f = false → hasFlag (t.link l).flags f = true → hasCause t.report.causes .loops = true

/-- What a part of an event may do, before the end of the event. -/
structure Part (s t : State) : Prop where
  time : TimeStep s.time t.time
  links : (∀ l, (s.link l).legal) → ∀ l, (t.link l).legal
  lock : s.session.locked = true → SameConfig s t
  flagged : Flagged s t
  noted : ∀ n, t.record? n ≠ s.record? n → n ∈ t.report.changed
  sorted : s.report.changed.Pairwise (· < ·) → t.report.changed.Pairwise (· < ·)
  steady : s.report.steady → t.report.steady
  table : s.table.legal → t.table.legal
  unknown : s.table.legal → s.table.unknownLegal → t.table.unknownLegal
  race : s.RaceLegal → t.RaceLegal

/-- A part of an event that keeps what the lock covers and drops neither a changed slot nor a cause. -/
structure Move (s t : State) : Prop extends Part s t where
  config : SameConfig s t
  joined : ∀ n ∈ s.report.changed, n ∈ t.report.changed
  caused : ∀ c, hasCause s.report.causes c = true → hasCause t.report.causes c = true

/-- What every event but a tick and a pin reset does. -/
structure Done (s t : State) : Prop where
  time : TimeStep s.time t.time
  links : (∀ l, (s.link l).legal) → ∀ l, (t.link l).legal
  lock : s.session.locked = true → SameConfig s t
  flagged : Flagged s t
  table : s.table.legal → t.table.legal
  unknown : s.table.legal → s.table.unknownLegal → t.table.unknownLegal
  race : s.RaceLegal → t.RaceLegal
  order : s.orderAgrees → t.orderAgrees
  report : s.report.legal → t.report.legal

/-- What every such event but the soft reset does. -/
structure Did (s t : State) : Prop extends Done s t where
  noted : ∀ n, t.record? n ≠ s.record? n → n ∈ t.report.changed ∧ hasCause t.report.causes .records = true

/-- An event that keeps what the lock covers and drops neither a changed slot nor a cause. -/
structure Event (s t : State) : Prop extends Did s t where
  config : SameConfig s t
  joined : ∀ n ∈ s.report.changed, n ∈ t.report.changed
  caused : ∀ c, (c = .records → s.report.changed ≠ []) → hasCause s.report.causes c = true →
    hasCause t.report.causes c = true

/-! ## How they join -/

theorem TimeStep.refl (c : TimeBase) : TimeStep c c := ⟨rfl, id, id⟩

theorem TimeStep.trans {a b c : TimeBase} (h : TimeStep a b) (k : TimeStep b c) : TimeStep a c :=
  ⟨k.now.trans h.now, k.legal ∘ h.legal, k.absence ∘ h.absence⟩

theorem SameConfig.refl (s : State) : SameConfig s s := ⟨rfl, fun _ => rfl, fun _ => rfl, fun _ => rfl⟩

theorem SameConfig.trans {s t u : State} (h : SameConfig s t) (k : SameConfig t u) : SameConfig s u :=
  ⟨k.circuit.trans h.circuit, fun l => (k.role l).trans (h.role l), fun l => (k.linePos l).trans (h.linePos l),
    fun l => (k.latency l).trans (h.latency l)⟩

theorem SameConfig.of_eq {s t u : State} (h : SameConfig s t) (hlinks : u.links = t.links)
    (hcircuit : u.circuit = t.circuit) : SameConfig s u := by
  obtain ⟨h1, h2, h3, h4⟩ := h
  constructor <;> simpa only [State.link, hlinks, hcircuit]

/-- Flags set by the first part keep LOOPS pending through the second. -/
theorem Flagged.trans {s t u : State} (h : Flagged s t) (k : Flagged t u)
    (hc : hasCause t.report.causes .loops = true → hasCause u.report.causes .loops = true) : Flagged s u := by
  intro l f hclear hset
  cases hm : hasFlag (t.link l).flags f with
  | false => exact k l f hm hset
  | true => exact hc (h l f hclear hm)

/-- A part of an event, then one that drops no changed slot and no cause. -/
theorem Part.then {s t u : State} (h : Part s t) (k : Move t u) : Part s u where
  time := h.time.trans k.time
  links := k.links ∘ h.links
  lock hl := (h.lock hl).trans k.config
  flagged := h.flagged.trans k.flagged (k.caused _)
  noted n hn := by
    by_cases hm : t.record? n = s.record? n
    · exact k.noted n (hm ▸ hn)
    · exact k.joined n (h.noted n hm)
  sorted := k.sorted ∘ h.sorted
  steady := k.steady ∘ h.steady
  table := k.table ∘ h.table
  unknown hl hu := k.unknown (h.table hl) (h.unknown hl hu)
  race := k.race ∘ h.race

theorem Move.trans {s t u : State} (h : Move s t) (k : Move t u) : Move s u where
  toPart := h.toPart.then k
  config := h.config.trans k.config
  joined n hn := k.joined n (h.joined n hn)
  caused c hc := k.caused c (h.caused c hc)

theorem Move.refl (s : State) : Move s s where
  time := .refl _
  links := id
  lock _ := .refl s
  flagged _ _ h h' := absurd (h.symm.trans h') (by simp)
  noted _ hn := absurd rfl hn
  sorted := id
  steady := id
  table := id
  unknown _ := id
  race := id
  config := .refl s
  joined _ := id
  caused _ := id

theorem Event.trans {s t u : State} (h : Event s t) (k : Event t u) : Event s u where
  time := h.time.trans k.time
  links := k.links ∘ h.links
  lock _ := h.config.trans k.config
  flagged := h.flagged.trans k.flagged (k.caused _ (by simp))
  table := k.table ∘ h.table
  unknown hl hu := k.unknown (h.table hl) (h.unknown hl hu)
  race := k.race ∘ h.race
  order := k.order ∘ h.order
  report := k.report ∘ h.report
  noted n hn := by
    by_cases hm : t.record? n = s.record? n
    · exact k.noted n (hm ▸ hn)
    · obtain ⟨hin, hrec⟩ := h.noted n hm
      exact ⟨k.joined n hin, k.caused _ (fun _ => List.ne_nil_of_mem hin) hrec⟩
  config := h.config.trans k.config
  joined n hn := k.joined n (h.joined n hn)
  caused c hc hs := by
    refine k.caused c (fun hr => ?_) (h.caused c hc hs)
    obtain ⟨n, hn⟩ := List.exists_mem_of_ne_nil _ (hc hr)
    exact List.ne_nil_of_mem (h.joined n hn)

/-! ## The end of an event (R57, R116, R161, R163) -/

theorem State.RaceLegal.of_eq {s t : State} (h : s.RaceLegal) (htable : t.table = s.table)
    (hsession : t.session = s.session) : t.RaceLegal :=
  ⟨hsession ▸ h.session, htable ▸ h.records⟩

/-- What the end of an event leaves of the reporting unit (R161, R163). -/
theorem Reporting.settle_legal {r : Reporting} (hsorted : r.changed.Pairwise (· < ·)) (hsteady : r.steady) :
    r.syncRecords.settleLatch.legal := by
  obtain ⟨causes, latch, he, hcauses, hlatch⟩ := r.settle_eq
  obtain ⟨hmod, hport, hreply, hread⟩ := hsteady
  rw [he]
  refine ⟨by simp [hcauses], hsorted, fun hl h0 => ?_, fun h0 hm => ?_, hmod, hport, hreply, hread⟩
  · simp_all
  · simp_all

theorem State.hasCause_settleAttention (u : State) (c : Cause) :
    hasCause u.settleAttention.report.causes c =
      if c = .records then !u.report.changed.isEmpty else hasCause u.report.causes c := by
  obtain ⟨causes, latch, he, hcauses, -⟩ := u.report.settle_eq
  rw [State.settleAttention_report, he]
  exact hcauses c

theorem State.settleAttention_changed (u : State) : u.settleAttention.report.changed = u.report.changed := by
  obtain ⟨causes, latch, he, -⟩ := u.report.settle_eq
  rw [State.settleAttention_report, he]

/-- A part of an event, with the attention settled after it. -/
theorem Part.settle {s t : State} (h : Part s t) (horder : s.orderAgrees → t.orderAgrees) : Did s t.settleAttention where
  time := h.time
  links := h.links
  lock hl := (h.lock hl).of_eq rfl rfl
  flagged l f hclear hset := by
    rw [State.hasCause_settleAttention]
    exact h.flagged l f hclear hset
  table := h.table
  unknown := h.unknown
  race hr := (h.race hr).of_eq rfl rfl
  order := horder
  report hl := by
    obtain ⟨-, hsorted, -, -, hsteady⟩ := hl
    exact Reporting.settle_legal (h.sorted hsorted) (h.steady hsteady)
  noted n hn := by
    have hin := h.noted n hn
    rw [State.hasCause_settleAttention, State.settleAttention_changed]
    exact ⟨hin, by simpa using List.ne_nil_of_mem hin⟩

theorem Move.settle {s t : State} (h : Move s t) (horder : s.orderAgrees → t.orderAgrees) : Event s t.settleAttention where
  toDid := h.toPart.settle horder
  config := h.config.of_eq rfl rfl
  joined n hn := by
    rw [State.settleAttention_changed]
    exact h.joined n hn
  caused c hc hs := by
    rw [State.hasCause_settleAttention]
    split
    · obtain ⟨n, hn⟩ := List.exists_mem_of_ne_nil _ (hc ‹_›)
      simpa using List.ne_nil_of_mem (h.joined n hn)
    · exact h.caused c hs

/-- An event that leaves the race, the news and the timer as they were ends without the attention being settled. -/
theorem Move.silent {s t : State} (h : Move s t) (hrace : KeepsRace s t) (hnews : KeepsNews s t) (htimer : KeepsTimer s t) :
    Event s t := by
  obtain ⟨htable, horder, hsession⟩ := hrace
  obtain ⟨hchanged, hcauses, hlatch⟩ := hnews
  obtain ⟨hmoderation, hexpiry⟩ := htimer
  constructor
  case config => exact h.config
  case joined => exact h.joined
  case caused => exact fun c _ => h.caused c
  constructor
  case noted => exact fun n hn => absurd (by rw [State.record?, State.record?, htable]) hn
  constructor
  case time => exact h.time
  case links => exact h.links
  case lock => exact h.lock
  case flagged => exact h.flagged
  case table => exact h.table
  case unknown => exact h.unknown
  case race => exact h.race
  case order =>
    intro ho
    simp only [State.orderAgrees, State.keyType, htable, horder, hsession] at ho ⊢
    exact ho
  case report =>
    intro hl
    obtain ⟨h1, h2, h3, h4, h5⟩ := hl
    obtain ⟨k1, k2, k3, k4⟩ := h.steady h5
    rw [← hcauses, ← hchanged] at h1
    rw [← hchanged] at h2
    rw [← hcauses, ← hlatch] at h3
    rw [← hcauses, ← hexpiry, ← hlatch] at h4
    exact ⟨h1, h2, h3, h4, k1, k2, k3, k4⟩

theorem Event.refl (s : State) : Event s s := (Move.refl s).silent ⟨rfl, rfl, rfl⟩ ⟨rfl, rfl, rfl⟩ ⟨rfl, rfl⟩

/-! ## Parts within one block -/

/-- A part of an event within the competitor table, the running order and the session controller. -/
theorem RacePart.move {s t : State} (h : RacePart s t) : Move s t := by
  obtain ⟨htime, hlinks, hcircuit⟩ := h.trackside
  obtain ⟨hphase, hbuffer, hreply, hread, -⟩ := h.port
  obtain ⟨hmoderation, -⟩ := h.timer
  have hlink : ∀ l, t.link l = s.link l := fun l => by simp only [State.link, hlinks]
  have hconfig : SameConfig s t := ⟨hcircuit, fun l => by rw [hlink], fun l => by rw [hlink], fun l => by rw [hlink]⟩
  constructor
  case config => exact hconfig
  case joined => exact h.joined
  case caused => exact h.caused
  constructor
  case time => exact htime ▸ .refl _
  case links => exact fun hl l => hlink l ▸ hl l
  case lock => exact fun _ => hconfig
  case flagged => exact fun l f hclear hset => absurd ((hlink l ▸ hset).symm.trans hclear) (by simp)
  case noted => exact h.noted
  case sorted => exact h.sorted
  case steady =>
    unfold Reporting.steady
    rw [hphase, hbuffer, hreply, hread, hmoderation]
    exact id
  case table => exact h.table
  case unknown => exact h.unknown
  case race => exact h.race

/-- The time base written. -/
theorem Move.setTime (s : State) {c : TimeBase} (h : TimeStep s.time c) : Move s (s.setTime c) where
  time := h
  links := id
  lock _ := ⟨rfl, fun _ => rfl, fun _ => rfl, fun _ => rfl⟩
  flagged _ _ h h' := absurd (h.symm.trans h') (by simp)
  noted _ hn := absurd rfl hn
  sorted := id
  steady := id
  table := id
  unknown _ := id
  race hr := hr.of_eq rfl rfl
  config := ⟨rfl, fun _ => rfl, fun _ => rfl, fun _ => rfl⟩
  joined _ := id
  caused _ := id

/-- The reporting unit and the counter of free draws written, with no changed slot added or dropped and no cause dropped. -/
theorem Move.setReport (s : State) {r : Reporting} (draws : Nat) (hchanged : r.changed = s.report.changed)
    (hcaused : ∀ c, hasCause s.report.causes c = true → hasCause r.causes c = true)
    (hsteady : s.report.steady → r.steady) : Move s { s with report := r, freeDraws := draws } where
  time := .refl _
  links := id
  lock _ := ⟨rfl, fun _ => rfl, fun _ => rfl, fun _ => rfl⟩
  flagged _ _ h h' := absurd (h.symm.trans h') (by simp)
  noted _ hn := absurd rfl hn
  sorted h := hchanged ▸ h
  steady := hsteady
  table := id
  unknown _ := id
  race hr := hr.of_eq rfl rfl
  config := ⟨rfl, fun _ => rfl, fun _ => rfl, fun _ => rfl⟩
  joined n hn := hchanged ▸ hn
  caused := hcaused

theorem Move.raise (s : State) (c : Cause) : Move s (s.raise c) :=
  .setReport s _ rfl (fun d hd => by rw [hasCause_addCause, hd, Bool.true_or]) id

theorem Move.shiftZeros (s : State) (n : Nat) : Move s (s.shiftZeros n) :=
  .setReport s _ rfl (fun _ => id) fun ⟨h1, _, h3, h4⟩ => ⟨h1, rfl, h3, h4⟩

theorem Move.loadReply (s : State) (k : Option RequestKind) (w : Result) (b : List Byte) : Move s (s.loadReply k w b) :=
  .setReport s _ rfl (fun _ => id) fun ⟨h1, h2, _, _⟩ => ⟨h1, h2, by simp, by simp⟩

theorem Move.overrun (s : State) : Move s s.overrun :=
  .setReport s _ rfl (fun _ => id) fun ⟨h1, h2, h3, h4⟩ => ⟨h1, h2, by simpa using h3, h4⟩

/-- The end of an event, whatever the state before it (R57, R132). -/
theorem Move.raiseSession (b s : State) : Move s (raiseSession b s) := by
  unfold Machine.raiseSession
  split
  · exact .refl s
  · exact .raise s .session

theorem Part.close {s t : State} (h : Part s t) (b : State) : Did s (closeEvent b t) := by
  refine Part.settle (h.then ((RacePart.reorder t).move.trans (.raiseSession b _))) fun _ => ?_
  exact closeEvent_agrees b t

theorem Move.close {s t : State} (h : Move s t) (b : State) : Event s (closeEvent b t) := by
  refine Move.settle (h.trans ((RacePart.reorder t).move.trans (.raiseSession b _))) fun _ => ?_
  exact closeEvent_agrees b t

end Sys2Proof.Machine
end

section
/-! What the loop links and the passing assembler do in an event (02, 03), as parts of it: each keeps what the lock covers
and every link legal, and sets a flag only with LOOPS (R32). -/

namespace Sys2Proof.Machine

/-! ## One link written -/

/-- A link written with its place, its latency and no new flag, as legal as it was. -/
structure LinkStep (k k' : Link) : Prop where
  role : k'.role = k.role
  linePos : k'.linePos = k.linePos
  latency : k'.settings.latency = k.settings.latency
  flags : ∀ f, hasFlag k'.flags f = true → hasFlag k.flags f = true
  legal : k.legal → k'.legal

theorem LinkStep.refl (k : Link) : LinkStep k k := ⟨rfl, rfl, rfl, fun _ => id, id⟩

/-- The links written, each within a `LinkStep`, and causes added. -/
theorem Move.setLinks (s : State) {v : Vector Link 8} (h : ∀ l : LinkNo, LinkStep (s.link l) v[l]) :
    Move s { s with links := v } := by
  have hconfig : SameConfig s { s with links := v } :=
    ⟨rfl, fun l => (h l).role, fun l => (h l).linePos, fun l => (h l).latency⟩
  constructor
  case config => exact hconfig
  case joined => exact fun _ => id
  case caused => exact fun _ => id
  constructor
  case time => exact .refl _
  case links => exact fun hl l => (h l).legal (hl l)
  case lock => exact fun _ => hconfig
  case flagged => exact fun l f hclear hset => absurd (((h l).flags f hset).symm.trans hclear) (by simp)
  case noted => exact fun _ hn => absurd rfl hn
  case sorted => exact id
  case steady => exact id
  case table => exact id
  case unknown => exact fun _ => id
  case race => exact fun hr => hr.of_eq rfl rfl

theorem State.link_setLink (s : State) (l : LinkNo) (k : Link) (j : LinkNo) :
    (s.setLink l k).link j = if j = l then k else s.link j := by
  split
  · rename_i h
    rw [h, State.link_setLink_self]
  · exact State.link_setLink_ne s l k ‹_›

theorem Move.setLink (s : State) (l : LinkNo) {k : Link} (h : LinkStep (s.link l) k) : Move s (s.setLink l k) := by
  refine .setLinks s fun j => ?_
  have hj := State.link_setLink s l k j
  simp only [State.link, State.setLink_links] at hj
  rw [hj]
  split
  · rename_i he
    exact he ▸ h
  · exact .refl _

/-- A flag set leaves the rest of every link as it was. -/
theorem State.link_setLoopFlag (s : State) (l : LinkNo) (f : LoopFlag) (j : LinkNo) :
    ∃ m, (s.setLoopFlag l f).link j = { s.link j with flags := m } := by
  rcases s.setLoopFlag_cases l f with ⟨-, he⟩ | ⟨-, he⟩
  · exact ⟨_, congrArg (State.link · j) he⟩
  · have hj : (s.setLoopFlag l f).link j =
        if j = l then { s.link l with flags := addFlag (s.link l).flags f } else s.link j := by
      rw [he]
      exact State.link_setLink s l _ j
    by_cases hjl : j = l
    · subst hjl
      exact ⟨_, hj.trans (if_pos rfl)⟩
    · exact ⟨_, hj.trans (if_neg hjl)⟩

@[simp] theorem State.setLoopFlag_role (s : State) (l : LinkNo) (f : LoopFlag) (j : LinkNo) :
    ((s.setLoopFlag l f).link j).role = (s.link j).role := by
  obtain ⟨m, hm⟩ := s.link_setLoopFlag l f j
  rw [hm]

@[simp] theorem State.setLoopFlag_linePos (s : State) (l : LinkNo) (f : LoopFlag) (j : LinkNo) :
    ((s.setLoopFlag l f).link j).linePos = (s.link j).linePos := by
  obtain ⟨m, hm⟩ := s.link_setLoopFlag l f j
  rw [hm]

@[simp] theorem State.setLoopFlag_settings (s : State) (l : LinkNo) (f : LoopFlag) (j : LinkNo) :
    ((s.setLoopFlag l f).link j).settings = (s.link j).settings := by
  obtain ⟨m, hm⟩ := s.link_setLoopFlag l f j
  rw [hm]

@[simp] theorem State.setLoopFlag_latestHit (s : State) (l : LinkNo) (f : LoopFlag) (j : LinkNo) :
    ((s.setLoopFlag l f).link j).latestHit = (s.link j).latestHit := by
  obtain ⟨m, hm⟩ := s.link_setLoopFlag l f j
  rw [hm]

theorem State.setLoopFlag_link_legal (s : State) (l : LinkNo) (f : LoopFlag) {j : LinkNo} (h : (s.link j).legal) :
    ((s.setLoopFlag l f).link j).legal := by
  obtain ⟨m, hm⟩ := s.link_setLoopFlag l f j
  rw [hm]
  exact h

/-- A flag set, with LOOPS where it is new (R32). -/
theorem Move.setLoopFlag (s : State) (l : LinkNo) (f : LoopFlag) : Move s (s.setLoopFlag l f) := by
  rcases s.setLoopFlag_cases l f with ⟨-, he⟩ | ⟨-, he⟩
  · rw [he]
    exact .refl s
  · have hloops : hasCause (s.setLoopFlag l f).report.causes .loops = true := by
      rw [he, State.raise_report, hasCause_addCause, decide_eq_true rfl, Bool.or_true]
    have hconfig : SameConfig s (s.setLoopFlag l f) :=
      ⟨s.setLoopFlag_circuit l f, s.setLoopFlag_role l f, s.setLoopFlag_linePos l f,
        fun j => by rw [State.setLoopFlag_settings]⟩
    constructor
    case config => exact hconfig
    case joined => exact fun n hn => by rw [he]; exact hn
    case caused => exact fun c hc => by rw [he, State.raise_report, hasCause_addCause]; simp [hc]
    constructor
    case time => exact (s.setLoopFlag_time l f).symm ▸ .refl _
    case links => exact fun hl j => s.setLoopFlag_link_legal l f (hl j)
    case lock => exact fun _ => hconfig
    case flagged => exact fun _ _ _ _ => hloops
    case noted => exact fun n hn => absurd (by rw [State.record?, State.record?, State.setLoopFlag_table]) hn
    case sorted => exact fun hs => by rw [he]; exact hs
    case steady => exact fun hs => by rw [he]; exact hs
    case table => exact fun hl => by rwa [State.setLoopFlag_table]
    case unknown => exact fun _ hl => by rwa [State.setLoopFlag_table]
    case race => exact fun hr => hr.of_eq (s.setLoopFlag_table l f) (s.setLoopFlag_session l f)

/-! ## Framing, liveness and outages (R23 to R26) -/

theorem LinkStep.sawDelimiter {k : Link} (hf : k.framed = true) (now : Nat) : LinkStep k (k.sawDelimiter now) := by
  refine ⟨rfl, rfl, rfl, fun _ => id, fun h => ?_⟩
  obtain ⟨h1, h2, h3, h4, h5, h6⟩ := h
  refine ⟨h1, h2, h3, h4, fun hr => ?_, h6⟩
  have := h5 hr
  simp_all [Link.framed, Link.sawDelimiter, Option.isSome_iff_ne_none]

/-- A link on which framing is gained, with its state derived (R23, R24). -/
theorem LinkStep.gained {k : Link} (hs : k.state = .down) (now : Nat) :
    LinkStep k { k.sawDelimiter now with state := .silent } := by
  refine ⟨rfl, rfl, rfl, fun _ => id, fun h => ?_⟩
  obtain ⟨h1, h2, h3, h4, h5, h6, h7, h8⟩ := h
  refine ⟨h1, h2, h3, ?_, ?_, ?_, ?_, h8⟩ <;> simp_all [Link.sawDelimiter]

theorem LinkStep.awake {k : Link} (hs : ¬(k.framed = false ∧ k.state = .down)) (now : Nat) :
    LinkStep k (k.sawDelimiter now) := by
  cases hf : k.framed with
  | true => exact .sawDelimiter hf now
  | false =>
    refine ⟨rfl, rfl, rfl, fun _ => id, fun h => ?_⟩
    obtain ⟨h1, h2, h3, h4, h5, h6⟩ := h
    refine ⟨h1, h2, h3, h4, fun hr => ?_, h6⟩
    have := h5 hr
    simp_all [Link.framed]

/-- A LIVE link that becomes SILENT (R24, R26). -/
theorem LinkStep.fellSilent {k : Link} (hs : k.state = .live) (now : Nat) : LinkStep k (k.leaveLive .silent now) := by
  refine ⟨rfl, rfl, rfl, fun _ => id, fun h => ?_⟩
  obtain ⟨h1, h2, h3, h4, h5, h6, h7, h8⟩ := h
  refine ⟨h1, h2, h3, ?_, ?_, ?_, ?_, h8⟩ <;> simp_all [Link.leaveLive]

/-- A LIVE link whose framing is lost (R24, R26). -/
theorem LinkStep.liveLost {k : Link} (hs : k.state = .live) (now : Nat) :
    LinkStep k (Link.leaveLive { k with framing := none } .down now) := by
  refine ⟨rfl, rfl, rfl, fun _ => id, fun h => ?_⟩
  obtain ⟨h1, h2, h3, h4, h5, h6, h7, h8⟩ := h
  refine ⟨h1, h2, h3, ?_, ?_, ?_, ?_, h8⟩ <;> simp_all [Link.leaveLive]

/-- A SILENT link whose framing is lost (R24). -/
theorem LinkStep.silentLost {k : Link} (hs : k.state = .silent) : LinkStep k { k with framing := none, state := .down } := by
  refine ⟨rfl, rfl, rfl, fun _ => id, fun h => ?_⟩
  obtain ⟨h1, h2, h3, h4, h5, h6, h7, h8⟩ := h
  refine ⟨h1, h2, h3, ?_, ?_, ?_, ?_, h8⟩ <;> simp_all

/-- Framing lost on a link that is DOWN or OFF (R24). -/
theorem LinkStep.idleLost {k : Link} (hs : k.state = .down ∨ k.state = .off) : LinkStep k { k with framing := none } := by
  refine ⟨rfl, rfl, rfl, fun _ => id, fun h => ?_⟩
  obtain ⟨h1, h2, h3, h4, h5, h6⟩ := h
  refine ⟨h1, h2, h3, h4, fun hr => ?_, h6⟩
  rcases hs with hs | hs
  · simp [hs]
  · exact absurd (h4.2 hs) hr

theorem Move.gainFraming (s : State) (l : LinkNo) : Move s (s.gainFraming l) := by
  rcases s.gainFraming_cases l with ⟨-, hs, he⟩ | ⟨hs, he⟩
  · rw [he]
    exact (Move.setLink s l (.gained hs _)).trans (.setLoopFlag _ l _)
  · rw [he]
    exact .setLink s l (.awake hs _)

theorem State.setLoopFlag_race (s : State) (l : LinkNo) (f : LoopFlag) : KeepsRace s (s.setLoopFlag l f) :=
  ⟨s.setLoopFlag_table l f, s.setLoopFlag_order l f, s.setLoopFlag_session l f⟩

/-- An event that leaves the race alone keeps the order list agreeing. -/
theorem KeepsRace.orderAgrees {s t : State} (h : KeepsRace s t) (ho : s.orderAgrees) : t.orderAgrees := by
  obtain ⟨htable, horder, hsession⟩ := h
  simp only [State.orderAgrees, State.keyType, htable, horder, hsession] at ho ⊢
  exact ho

theorem KeepsRace.trans {s t u : State} (h : KeepsRace s t) (k : KeepsRace t u) : KeepsRace s u := by
  obtain ⟨h1, h2, h3⟩ := h
  obtain ⟨k1, k2, k3⟩ := k
  exact ⟨k1.trans h1, k2.trans h2, k3.trans h3⟩

theorem KeepsRace.refl (s : State) : KeepsRace s s := ⟨rfl, rfl, rfl⟩

/-- A link written and a flag set on it, with the attention settled. -/
theorem Event.linkFlag (s : State) (l : LinkNo) {k : Link} (h : LinkStep (s.link l) k) (f : LoopFlag) :
    Event s ((s.setLink l k).setLoopFlag l f).settleAttention :=
  ((Move.setLink s l h).trans (.setLoopFlag _ l f)).settle ((s.setLink l k).setLoopFlag_race l f).orderAgrees

theorem Event.loseFraming (s : State) (l : LinkNo) : Event s (s.loseFraming l) := by
  rcases s.loseFraming_cases l with ⟨-, he⟩ | ⟨-, ⟨hs, he⟩ | ⟨hs, he⟩ | ⟨hs, he⟩⟩ <;> rw [he]
  · exact .refl s
  · exact .linkFlag s l (.liveLost hs _) _
  · exact .linkFlag s l (.silentLost hs) _
  · exact (Move.setLink s l (.idleLost hs)).settle id

theorem State.live_of_silenceDue {s : State} {l : LinkNo} (h : s.silenceDue l = true) : (s.link l).state = .live := by
  simp only [State.silenceDue, Bool.and_eq_true, decide_eq_true_eq] at h
  exact h.1

theorem Move.silenceHappens {s : State} {l : LinkNo} (h : s.silenceDue l = true) : Move s (s.silenceHappens l) :=
  (Move.setLink s l (.fellSilent (State.live_of_silenceDue h) _)).trans (.setLoopFlag _ l _)

theorem Event.silenceExpiry (s : State) (l : LinkNo) : Event s (s.silenceExpiry l) := by
  rcases s.silenceExpiry_cases l with ⟨-, he⟩ | ⟨hd, he⟩ <;> rw [he]
  · exact .refl s
  · exact (Move.silenceHappens hd).settle ((s.setLink l _).setLoopFlag_race l _).orderAgrees

/-- A LIVE link that restarts (R25). -/
theorem LinkStep.stillLive {k : Link} (hs : k.state = .live) (e : Nat) : LinkStep k { k with silenceExpiry := some e } := by
  refine ⟨rfl, rfl, rfl, fun _ => id, fun h => ?_⟩
  obtain ⟨h1, h2, h3, h4, h5, h6, h7⟩ := h
  exact ⟨h1, h2, h3, h4, h5, by simp [hs], h7⟩

/-- A SILENT link that becomes LIVE (R24 to R26). -/
theorem LinkStep.woken {k : Link} (hs : k.state = .silent) (e now : Nat) :
    LinkStep k { k with silenceExpiry := some e, state := .live, outage := closeOutage k.outage now } := by
  refine ⟨rfl, rfl, rfl, fun _ => id, fun h => ?_⟩
  obtain ⟨h1, h2, h3, h4, h5, h6, h7, h8⟩ := h
  refine ⟨h1, h2, h3, by simp_all, by simp_all, by simp, fun _ o ho => ?_, h8⟩
  rw [closeOutage_eq_map] at ho
  obtain ⟨p, -, rfl⟩ := Option.mem_map.1 ho
  rfl

theorem Move.restart (s : State) (l : LinkNo) : Move s (s.restart l) := by
  unfold State.restart
  dsimp only
  split
  · exact .setLink s l (.stillLive ‹_› _)
  · exact (Move.setLink s l (.woken ‹_› _ _)).trans (.setLoopFlag _ l _)
  · exact .refl s
  · exact .refl s

theorem Move.trafficRestart (s : State) (l : LinkNo) : Move s (s.trafficRestart l) := by
  unfold State.trafficRestart
  split
  · exact .restart s l
  · exact .refl s

/-! ## Reports but for hits (R27 to R29) -/

theorem Move.takeEcho (s : State) (l : LinkNo) (m : Nat) : Move s (s.takeEcho l m) := by
  unfold State.takeEcho
  dsimp only
  refine (Move.trafficRestart s l).trans ?_
  split
  · exact .setLoopFlag _ l _
  · split
    · exact .restart _ l
    · exact .refl _

theorem Move.takeNoise (s : State) (l : LinkNo) (level : Nat) : Move s (s.takeNoise l level) := by
  unfold State.takeNoise
  dsimp only
  have hnoisy := fun (t : State) (c : Prop) [Decidable c] (f : LoopFlag) =>
    show Move t (if c then t.setLoopFlag l f else t) from by
      split
      · exact .setLoopFlag t l f
      · exact .refl t
  refine (Move.trafficRestart s l).trans ?_
  refine Move.trans ?_ (hnoisy _ _ _)
  refine Move.trans ?_ (hnoisy _ _ _)
  exact .setLink _ l ⟨rfl, rfl, rfl, fun _ => id, id⟩

theorem State.restart_race (s : State) (l : LinkNo) : KeepsRace s (s.restart l) := by
  unfold State.restart
  dsimp only
  split
  · exact ⟨rfl, rfl, rfl⟩
  · exact (s.setLink l _).setLoopFlag_race l _
  · exact .refl s
  · exact .refl s

theorem State.trafficRestart_race (s : State) (l : LinkNo) : KeepsRace s (s.trafficRestart l) := by
  unfold State.trafficRestart
  split
  · exact s.restart_race l
  · exact .refl s

theorem State.takeEcho_race (s : State) (l : LinkNo) (m : Nat) : KeepsRace s (s.takeEcho l m) := by
  unfold State.takeEcho
  dsimp only
  refine (s.trafficRestart_race l).trans ?_
  split
  · exact State.setLoopFlag_race _ l _
  · split
    · exact State.restart_race _ l
    · exact .refl _

theorem State.flagWhere_race (s : State) (l : LinkNo) (f : LoopFlag) (c : Prop) [Decidable c] :
    KeepsRace s (if c then s.setLoopFlag l f else s) := by
  split
  · exact s.setLoopFlag_race l f
  · exact .refl s

theorem State.takeNoise_race (s : State) (l : LinkNo) (level : Nat) : KeepsRace s (s.takeNoise l level) := by
  unfold State.takeNoise
  dsimp only
  refine (s.trafficRestart_race l).trans ?_
  refine KeepsRace.trans ?_ (State.flagWhere_race _ l _ _)
  refine KeepsRace.trans ?_ (State.flagWhere_race _ l _ _)
  exact ⟨rfl, rfl, rfl⟩

/-- A report that comes to its end on a link: discarded, or handled once its delimiter is seen (R23, R27). -/
theorem Event.takeReport (s : State) (l : LinkNo) {handle : State → State}
    (h : ∀ t, Move s t → KeepsRace s t → (t.link l).role ≠ .off → Event s (handle t)) : Event s (s.takeReport l handle) := by
  rcases s.takeReport_cases l handle with ⟨-, he⟩ | ⟨hf, -, he⟩ | ⟨hf, hr, he⟩ <;> rw [he]
  · exact .refl s
  · exact (Move.setLink s l (.sawDelimiter hf _)).silent ⟨rfl, rfl, rfl⟩ ⟨rfl, rfl, rfl⟩ ⟨rfl, rfl⟩
  · exact h _ (.setLink s l (.sawDelimiter hf _)) ⟨rfl, rfl, rfl⟩ (by rwa [State.link_setLink_self])

end Sys2Proof.Machine
end

section
/-! The passing assembler (03) and the reports that carry hits (R30, R31), as parts of an event. -/

namespace Sys2Proof.Machine

/-! ## The open passing table of a link (R36 to R41) -/

/-- An entry written on a link that is not OFF, where there is room for it or the code has one already (R36). -/
theorem LinkStep.putEntry {k : Link} {code : Nat} {e : Entry} (hrole : k.role ≠ .off)
    (hroom : k.passings.length < 16 ∨ ∃ e', k.passings.find code = some e') (he : k.legal → e.legal k.latestHit) :
    LinkStep k { k with passings := k.passings.put code e } := by
  refine ⟨rfl, rfl, rfl, fun _ => id, fun h => ?_⟩
  have helegal := he h
  obtain ⟨h1, h2, h3, h4, h5, h6, h7, h8, hw, hlen, hentries⟩ := h
  refine ⟨h1, h2, h3, h4, h5, h6, h7, fun hr => absurd hr hrole, KeyMap.wf_put hw _ _, ?_, fun q hq => ?_⟩
  · rcases hroom with hroom | ⟨e', he'⟩
    · exact (KeyMap.length_put _ _ _).trans hroom
    · exact (KeyMap.length_put_present hw he').trans_le hlen
  · rcases KeyMap.mem_put hq with rfl | hq
    · exact helegal
    · exact hentries q hq

theorem LinkStep.removeEntry (k : Link) (code : Nat) : LinkStep k { k with passings := k.passings.remove code } := by
  refine ⟨rfl, rfl, rfl, fun _ => id, fun h => ?_⟩
  obtain ⟨h1, h2, h3, h4, h5, h6, h7, h8, hw, hlen, hentries⟩ := h
  have hsub := k.passings.remove_sublist code
  refine ⟨h1, h2, h3, h4, h5, h6, h7, fun hr => ?_, KeyMap.wf_remove hw _, hsub.length_le.trans hlen,
    fun q hq => hentries q (hsub.subset hq)⟩
  rw [h8 hr]
  rfl

/-- A later hit accepted on the link (R31). -/
theorem LinkStep.laterHit {k : Link} {t : Nat} (h : ∀ u ∈ k.latestHit, u ≤ t) :
    LinkStep k { k with latestHit := some t } := by
  refine ⟨rfl, rfl, rfl, fun _ => id, fun hk => ?_⟩
  obtain ⟨h1, h2, h3, h4, h5, h6, h7, h8, hw, hlen, hentries⟩ := hk
  refine ⟨h1, h2, h3, h4, h5, h6, h7, h8, hw, hlen, fun q hq p hp => ?_⟩
  obtain ⟨p1, p2, p3, p4, p5, u, hu, hlast⟩ := hentries q hq p hp
  exact ⟨p1, p2, p3, p4, p5, t, rfl, hlast.trans (h u hu)⟩

/-! ## Passings that close (R40, R42, R45, R47) -/

theorem Move.closePassing (s : State) (l : LinkNo) (code : Nat) (p : OpenPassing) (q : Quality) :
    Move s (s.closePassing l code p q) := by
  unfold State.closePassing
  split
  · exact .setLoopFlag s l _
  · exact (RacePart.handOn s l code _ q).move

theorem Move.removeEntry (s : State) (l : LinkNo) (code : Nat) :
    Move s (s.setPassings l ((s.link l).passings.remove code)) := .setLink s l (.removeEntry _ code)

theorem Move.closeNow (s : State) (l : LinkNo) (code : Nat) (p : OpenPassing) : Move s (s.closeNow l code p) :=
  (Move.removeEntry s l code).trans (.closePassing _ l code p _)

theorem Event.closeExpiry (s : State) (l : LinkNo) (code : Nat) : Event s (s.closeExpiry l code) := by
  unfold State.closeExpiry
  split
  · split
    · exact (Move.closeNow s l code _).close s
    · exact .refl s
  · exact .refl s

theorem Event.guardRemoval (s : State) (l : LinkNo) (code : Nat) : Event s (s.guardRemoval l code) := by
  unfold State.guardRemoval
  split
  · split
    · exact (Move.removeEntry s l code).silent ⟨rfl, rfl, rfl⟩ ⟨rfl, rfl, rfl⟩ ⟨rfl, rfl⟩
    · exact .refl s
  · exact .refl s

/-! ## A weighted hit at the table (R37 to R41) -/

/-- A hit at time `t` has just been accepted on a link that is not OFF. -/
def State.HitAt (s : State) (l : LinkNo) (t : Nat) : Prop := (s.link l).role ≠ .off ∧ (s.link l).latestHit = some t

theorem State.HitAt.setLoopFlag {s : State} {l : LinkNo} {t : Nat} (h : s.HitAt l t) (f : LoopFlag) :
    (s.setLoopFlag l f).HitAt l t := by
  unfold State.HitAt
  rwa [State.setLoopFlag_role, State.setLoopFlag_latestHit]

theorem OpenPassing.opened_legal (c : LinkSettings) (t strength : Nat) :
    (OpenPassing.opened c t strength).legal (some t) := by
  simp [OpenPassing.legal, OpenPassing.opened, hitWeight]

/-- A hit at or after the last one joins (R39). -/
theorem OpenPassing.legal.joined {p : OpenPassing} {t : Nat} (h : p.legal (some t)) (c : LinkSettings) (strength : Nat) :
    (p.joined c t strength).legal (some t) := by
  obtain ⟨hspan, hcount, -, hweight, hmoment, u, hu, hlast⟩ := h
  obtain rfl := Option.some.inj (Option.mem_def.1 hu)
  refine ⟨hspan.trans hlast, ?_, ?_, ?_, ?_, t, rfl, Nat.le_refl t⟩
  · simp only [OpenPassing.joined]
    omega
  · simp only [OpenPassing.joined]
    omega
  · simp only [OpenPassing.joined]
    omega
  · have hsub : p.last - p.first ≤ t - p.first := Nat.sub_le_sub_right hlast _
    calc p.moment + hitWeight c strength * (t - p.first)
        ≤ p.weight * (t - p.first) + hitWeight c strength * (t - p.first) :=
          Nat.add_le_add_right (hmoment.trans (Nat.mul_le_mul_left _ hsub)) _
      _ = (p.weight + hitWeight c strength) * (t - p.first) := (Nat.add_mul ..).symm

theorem Move.putPassing {s : State} {l : LinkNo} {code : Nat} {p : OpenPassing} (hrole : (s.link l).role ≠ .off)
    (hroom : (s.link l).passings.length < 16 ∨ ∃ e, (s.link l).passings.find code = some e)
    (hp : (s.link l).legal → p.legal (s.link l).latestHit) : Move s (s.putPassing l code p) := by
  have hput : Move s (s.setPassings l ((s.link l).passings.put code (.passing p))) :=
    .setLink s l (.putEntry hrole hroom fun hk q hq => Option.some.inj hq ▸ hp hk)
  unfold State.putPassing
  dsimp only
  split
  · exact hput.trans (.closeNow _ l code p)
  · exact hput

theorem Move.putGuard {s : State} {l : LinkNo} {code : Nat} {e : Entry} (hrole : (s.link l).role ≠ .off)
    (hfound : (s.link l).passings.find code = some e) (g : GuardEntry) : Move s (s.putGuard l code g) := by
  have hput : Move s (s.setPassings l ((s.link l).passings.put code (.guard g))) :=
    .setLink s l (.putEntry hrole (.inr ⟨e, hfound⟩) fun _ q hq => nomatch hq)
  unfold State.putGuard
  dsimp only
  split
  · exact hput.trans (.removeEntry _ l code)
  · exact hput

theorem Move.tableHit {s : State} {l : LinkNo} {t : Nat} (h : s.HitAt l t) (code strength : Nat) :
    Move s (s.tableHit l code t strength) := by
  obtain ⟨hrole, hlatest⟩ := h
  unfold State.tableHit
  split
  · unfold State.openPassing
    split
    · exact .putPassing hrole (.inl ‹_›) fun _ => hlatest ▸ OpenPassing.opened_legal _ t strength
    · exact .setLoopFlag s l _
  · rename_i p hp
    unfold State.joinPassing
    split
    · refine .putPassing hrole (.inr ⟨_, hp⟩) fun hk => ?_
      obtain ⟨-, -, -, -, -, -, -, -, -, -, hentries⟩ := hk
      have hlegal := hentries _ (KeyMap.find_mem hp) p rfl
      rw [hlatest] at hlegal ⊢
      exact hlegal.joined _ strength
    · exact (Move.putGuard hrole hp _).trans (.closePassing _ l code p _)
  · exact .putGuard hrole ‹_› _

theorem Move.assemble {s : State} {l : LinkNo} {t : Nat} (h : s.HitAt l t) (code strength : Nat) :
    Move s (s.assemble l code t strength) := by
  unfold State.assemble
  split
  · exact .setLoopFlag s l _
  · split
    · exact (Move.setLoopFlag s l _).trans (.tableHit (h.setLoopFlag _) code strength)
    · exact .tableHit h code strength

theorem Move.acceptHit {s : State} {l : LinkNo} (hrole : (s.link l).role ≠ .off) (code t strength : Nat) :
    Move s (s.acceptHit l code t strength) := by
  unfold State.acceptHit
  split
  · exact .setLoopFlag s l _
  · split
    · exact .setLoopFlag s l _
    · rename_i horder
      refine (Move.setLink s l (.laterHit fun u hu => ?_)).trans (.assemble ⟨?_, ?_⟩ code strength)
      · rw [Option.mem_def.1 hu] at horder
        simpa using horder
      · rwa [State.link_setLink_self]
      · rw [State.link_setLink_self]

theorem State.trafficRestart_role (s : State) (l : LinkNo) : ((s.trafficRestart l).link l).role = (s.link l).role :=
  (Move.trafficRestart s l).config.role l

theorem Move.takeHit {s : State} {l : LinkNo} (hrole : (s.link l).role ≠ .off) (code m offset strength : Nat) :
    Move s (s.takeHit l code m offset strength) := by
  unfold State.takeHit
  dsimp only
  refine (Move.trafficRestart s l).trans ?_
  split
  · exact .setLoopFlag _ l _
  · exact .acceptHit (by rwa [State.trafficRestart_role]) _ _ _

end Sys2Proof.Machine
end

section
/-! The time base (01) in an event: each change of it keeps the clock and the tables of 01, and makes no absence expiry due;
a tick that finds none due keeps the tables as well. -/

namespace Sys2Proof.Machine

/-! ## Trim (R3, R8, R11) -/

/-- A trim that a good interval gives is in its range (R7, R8). -/
theorem trimOf_range {n : Nat} (h : verdictOf n = .good) : -100 ≤ trimOf n ∧ trimOf n ≤ 100 := by
  unfold verdictOf at h
  split at h
  · rename_i hn
    simp only [within, Bool.and_eq_true, decide_eq_true_eq] at hn
    unfold trimOf
    omega
  · exact nomatch h

/-- The correction period of a trim in its range is not 0. -/
theorem trimPeriod_pos {v : Int} (h : -100 ≤ v ∧ v ≤ 100) (h0 : v ≠ 0) : 0 < 1000000 / v.natAbs :=
  Nat.div_pos (by omega) (by omega)

theorem verdictOf_good_iff (n : Nat) : verdictOf n = .good ↔ 999900 ≤ n ∧ n ≤ 1000100 := by
  unfold verdictOf
  split <;> simp_all [within]

/-! ## The changes of the time base -/

theorem TimeStep.issueMark {c : TimeBase} (h : c.markDue = true) : TimeStep c c.issueMark := by
  refine ⟨rfl, fun hl => ?_, id⟩
  obtain ⟨hnow, hmark, -, hlimit, hrest⟩ := hl
  simp only [TimeBase.markDue, Bool.and_eq_true, Bool.not_eq_true', decide_eq_true_eq, Config.markStep] at h
  obtain ⟨hclear, hdue⟩ := h
  have hlast : c.mark ≠ 4294967295 := fun he => by simp [hlimit.2 he] at hclear
  refine ⟨hnow, ?_, hdue, ?_, hrest⟩
  · simp only [TimeBase.issueMark]
    omega
  · simp [TimeBase.issueMark, Config.lastMark]

theorem TimeStep.firstEdge {c : TimeBase} (h : c.monitor = .absent) : TimeStep c c.firstEdge := by
  refine ⟨rfl, fun hl => ?_, fun _ => by simp [TimeBase.absenceDue, TimeBase.firstEdge, Config.absenceLimit]⟩
  obtain ⟨h1, h2, h3, h4, h5, h6, h7, h8, h9, h10, h11, h12, h13, h14, h15, h16, h17⟩ := hl
  refine ⟨h1, h2, h3, h4, h5, fun hs => ?_, h7, h8, h9, h10, h11, ?_⟩
  · have := h6 hs
    simp_all [TimeBase.firstEdge]
  · simp_all [TimeBase.firstEdge]

/-- The interval an edge ends is in its range and has the verdict of its length (R7). -/
theorem storedInterval_legal {c : TimeBase} (h : c.absence ≤ 1500000) {i : Interval}
    (hi : i ∈ c.storeInterval.lastInterval) : i.ticks ≤ 1500000 ∧
    (i.verdict = .good ↔ 999900 ≤ i.ticks ∧ i.ticks ≤ 1000100) := by
  obtain rfl := Option.some.inj hi
  exact ⟨h, verdictOf_good_iff _⟩

/-- The mode after the monitor has lost the reference (R10). -/
def TimeBase.lostMode (c : TimeBase) : Mode := if c.monitor = .qualified then Mode.afterLoss c.mode else c.mode

theorem TimeBase.lostMode_free (c : TimeBase) : c.lostMode = .free ↔ c.mode = .free := by
  unfold TimeBase.lostMode
  split
  · cases c.mode <;> simp [Mode.afterLoss]
  · rfl

theorem TimeBase.lostMode_ne_locked {c : TimeBase} (h : c.mode = .locked ↔ c.monitor = .qualified) :
    c.lostMode ≠ .locked := by
  unfold TimeBase.lostMode
  split
  · cases c.mode <;> simp [Mode.afterLoss]
  · exact fun hm => absurd (h.1 hm) ‹_›

theorem TimeStep.badInterval (c : TimeBase) : TimeStep c c.storeInterval.badInterval := by
  refine ⟨rfl, fun hl => ?_, fun _ => by
    simp [TimeBase.absenceDue, TimeBase.storeInterval, TimeBase.badInterval, Config.absenceLimit]⟩
  obtain ⟨h1, h2, h3, h4, h5, h6, h7, h8, h9, h10, h11, -, -, -, h15, -, -⟩ := hl
  have hmode : c.storeInterval.badInterval.mode = c.lostMode := rfl
  exact ⟨h1, h2, h3, h4, by rw [hmode, c.lostMode_free]; exact h5,
    fun hs => iff_of_false (hmode ▸ TimeBase.lostMode_ne_locked (h6 hs)) (by simp [TimeBase.badInterval]), h7, h8,
    fun hf => h9 (c.lostMode_free.1 hf), h10, h11, by simp [TimeBase.badInterval], by simp [TimeBase.badInterval],
    by simp [TimeBase.badInterval], Nat.zero_le _, fun _ hi => storedInterval_legal h15 hi,
    by simp [TimeBase.badInterval]⟩

/-- The reference lost to the absence counter (R9, R10). -/
theorem TimeStep.lose (c : TimeBase) : TimeStep c c.lose ∧ c.lose.absenceDue = false := by
  refine ⟨⟨rfl, fun hl => ?_, fun _ => rfl⟩, rfl⟩
  obtain ⟨h1, h2, h3, h4, h5, h6, h7, h8, h9, h10, h11, -, -, -, h15, h16, -⟩ := hl
  have hmode : c.lose.mode = c.lostMode := rfl
  exact ⟨h1, h2, h3, h4, by rw [hmode, c.lostMode_free]; exact h5,
    fun hs => iff_of_false (hmode ▸ TimeBase.lostMode_ne_locked (h6 hs)) (by simp [TimeBase.lose]), h7, h8,
    fun hf => h9 (c.lostMode_free.1 hf), h10, h11, by simp [TimeBase.lose], by simp [TimeBase.lose],
    by simp [TimeBase.lose], h15, h16, by simp [TimeBase.lose]⟩

/-- A good interval of a QUALIFIED monitor: the trim renewed while LOCKED (R8, R11). -/
theorem TimeStep.renewed {c : TimeBase} (hv : verdictOf c.absence = .good) (hq : c.monitor = .qualified) :
    TimeStep c (c.storeInterval.goodInterval c.absence) := by
  have hrange := trimOf_range hv
  have hpos := trimPeriod_pos hrange
  unfold TimeBase.goodInterval
  rw [if_pos (by exact hq)]
  split
  all_goals
    refine ⟨rfl, fun hl => ?_, fun _ => by
      simp [TimeBase.absenceDue, TimeBase.storeInterval, TimeBase.setTrim, Config.absenceLimit]⟩
    obtain ⟨h1, h2, h3, h4, h5, h6, h7, h8, h9, h10, h11, h12, h13, h14, h15, -, -⟩ := hl
  · rename_i hlocked
    have hlocked' : c.mode = .locked := hlocked
    exact ⟨h1, h2, h3, h4, h5, h6, hrange.1, hrange.2, fun hf => by simp [TimeBase.setTrim, hlocked] at hf,
      fun _ => rfl, hpos, h12, h13, h14, Nat.zero_le _, fun _ hi => storedInterval_legal h15 hi,
      fun _ => ⟨_, rfl, hv⟩⟩
  · exact ⟨h1, h2, h3, h4, h5, h6, h7, h8, h9, h10, h11, h12, h13, h14, Nat.zero_le _,
      fun _ hi => storedInterval_legal h15 hi, fun _ => ⟨_, rfl, hv⟩⟩

/-- A good interval that counts towards qualification (R8). -/
theorem TimeStep.counted {c : TimeBase} (hq : c.monitor ≠ .qualified) (habs : c.monitor ≠ .absent)
    (hcount : c.goodCount < 3) : TimeStep c { c.storeInterval with goodCount := c.goodCount + 1 } := by
  refine ⟨rfl, fun hl => ?_, fun _ => by
    simp [TimeBase.absenceDue, TimeBase.storeInterval, Config.absenceLimit]⟩
  obtain ⟨h1, h2, h3, h4, h5, h6, h7, h8, h9, h10, h11, h12, h13, h14, h15, -, -⟩ := hl
  refine ⟨h1, h2, h3, h4, h5, h6, h7, h8, h9, h10, h11, ?_, ?_, fun h => absurd h habs, Nat.zero_le _,
    fun _ hi => storedInterval_legal h15 hi, fun h => absurd h hq⟩
  · change c.goodCount + 1 ≤ 4
    omega
  · exact ⟨fun h => absurd h hq, fun h => by
      change c.goodCount + 1 = 4 at h
      omega⟩

/-- The good interval that gains qualification (R8, R11). -/
theorem TimeStep.gained {c : TimeBase} (hv : verdictOf c.absence = .good) (hq : c.monitor ≠ .qualified) :
    TimeStep c (c.storeInterval.gain c.absence) := by
  have hrange := trimOf_range hv
  have hpos := trimPeriod_pos hrange
  unfold TimeBase.gain
  dsimp only
  split
  all_goals
    refine ⟨rfl, fun hl => ?_, fun _ => by
      simp [TimeBase.absenceDue, TimeBase.storeInterval, TimeBase.setTrim, Config.absenceLimit]⟩
    obtain ⟨h1, h2, h3, h4, h5, h6, h7, h8, h9, h10, h11, -, -, -, h15, -, -⟩ := hl
  · rename_i hheld
    obtain ⟨hsource, -⟩ := hheld
    have hsource' : c.source = .reference := hsource
    exact ⟨h1, h2, h3, h4, by simp [TimeBase.setTrim, TimeBase.storeInterval, hsource'],
      fun _ => by simp [TimeBase.setTrim], hrange.1, hrange.2, fun hf => by simp at hf,
      fun _ => rfl, hpos, Nat.le_refl _, by simp [TimeBase.setTrim], by simp [TimeBase.setTrim], Nat.zero_le _,
      fun _ hi => storedInterval_legal h15 hi, fun _ => ⟨_, rfl, hv⟩⟩
  · rename_i hheld
    refine ⟨h1, h2, h3, h4, h5, fun hs => ?_, h7, h8, h9, h10, h11, Nat.le_refl _, by simp, by simp, Nat.zero_le _,
      fun _ hi => storedInterval_legal h15 hi, fun _ => ⟨_, rfl, hv⟩⟩
    have hfree : c.mode ≠ .free := fun hf => by
      have hint := h5.2 hf
      rw [show c.source = .reference from hs] at hint
      exact nomatch hint
    have hlock := h6 hs
    cases hm : c.mode with
    | free => exact absurd hm hfree
    | locked => exact absurd (hlock.1 hm) hq
    | holdover => exact absurd ⟨hs, hm⟩ hheld

theorem TimeStep.edge (c : TimeBase) : TimeStep c c.edge := by
  unfold TimeBase.edge
  split
  · exact .firstEdge ‹_›
  · split
    · rename_i habs hv
      by_cases hq : c.monitor = .qualified
      · exact .renewed hv hq
      · unfold TimeBase.goodInterval
        rw [if_neg (by exact hq)]
        split
        · exact .counted hq habs ‹_›
        · exact .gained hv hq
    · exact .badInterval c

/-! ## Source selection (R12) -/

theorem TimeStep.goFree (c : TimeBase) : TimeStep c c.goFree := by
  refine ⟨rfl, fun hl => ?_, id⟩
  obtain ⟨h1, h2, h3, h4, -, -, -, -, -, -, -, hrest⟩ := hl
  exact ⟨h1, h2, h3, h4, by simp [TimeBase.goFree], by simp [TimeBase.goFree],
    show (-100 : Int) ≤ 0 by decide, show (0 : Int) ≤ 100 by decide, fun _ => rfl,
    fun _ => rfl, fun h => absurd rfl h, hrest⟩

theorem TimeStep.goLocked {c : TimeBase} (hq : c.monitor = .qualified) : TimeStep c c.goLocked := by
  refine ⟨rfl, fun hl => ?_, id⟩
  obtain ⟨h1, h2, h3, h4, -, -, -, -, -, -, -, h12, h13, h14, h15, h16, h17⟩ := hl
  obtain ⟨i, hi, hgood⟩ := h17 hq
  obtain ⟨-, hverdict⟩ := h16 i hi
  have hrange : -100 ≤ trimOf i.ticks ∧ trimOf i.ticks ≤ 100 :=
    trimOf_range ((verdictOf_good_iff _).2 (hverdict.1 hgood))
  have htrim : c.goLocked.trim = trimOf i.ticks := by
    simp [TimeBase.goLocked, TimeBase.setTrim, Option.mem_def.1 hi]
  refine ⟨h1, h2, h3, h4, by simp [TimeBase.goLocked], fun _ => by simp [TimeBase.goLocked, TimeBase.setTrim, hq],
    htrim ▸ hrange.1, htrim ▸ hrange.2, by simp [TimeBase.goLocked], fun _ => rfl, fun h0 => ?_, h12, h13, h14, h15,
    h16, h17⟩
  rw [htrim] at h0 ⊢
  exact trimPeriod_pos hrange h0

/-! ## The tick (R1, R3, R9) -/

/-- A tick that finds no absence expiry due keeps the tables of 01. -/
theorem TimeBase.legal.tick {c : TimeBase} (hl : c.legal) (hdue : c.absenceDue = false) : c.tick.legal := by
  obtain ⟨h1, h2, h3, h4, h5, h6, h7, h8, h9, h10, h11, h12, h13, h14, h15, h16, h17⟩ := hl
  have hcount : c.trim = 0 → c.nextTrimCount = 0 := fun h0 => by simp [TimeBase.nextTrimCount, h0]
  have hperiod : c.trim ≠ 0 → c.nextTrimCount < 1000000 / c.trim.natAbs := fun h0 => by
    have hpos := trimPeriod_pos ⟨h7, h8⟩ h0
    have hbelow := h11 h0
    unfold TimeBase.nextTrimCount
    rw [if_neg h0]
    split
    · exact hpos
    · rename_i hnext
      have hshort : c.trimCount + 1 ≠ 1000000 / c.trim.natAbs := fun he => hnext (by
        simp [TimeBase.correctiveNext, trimPeriod, h0, he])
      omega
  have habsence : c.tick.absence ≤ 1500000 := by
    simp only [TimeBase.absenceDue, Config.absenceLimit, Bool.and_eq_false_iff, decide_eq_false_iff_not] at hdue
    simp only [TimeBase.tick]
    split
    · exact h15
    · rename_i hmon
      rcases hdue with hdue | hdue
      · exact absurd hmon hdue
      · omega
  refine ⟨Nat.min_le_right _ _, h2, ?_, h4, h5, h6, h7, h8, h9, hcount, hperiod, h12, h13, h14, habsence, h16, h17⟩
  change c.mark * 10000 ≤ min (c.now + c.increment) Config.maxTime
  exact Nat.le_min.2 ⟨by omega, h3.trans h1⟩

theorem TimeBase.increment_le (c : TimeBase) : c.increment ≤ 2 := by
  unfold TimeBase.increment
  split
  · split <;> decide
  · decide

end Sys2Proof.Machine
end

section
/-! Every command but the resets and the ticks as an event (10.1, 8.3): what its server does is a part of an event, and the
frame it comes in adds a reply. -/

namespace Sys2Proof.Machine

/-! ## Requests -/

/-- What a server does to the part it is given, seen from before the frame was taken. -/
theorem Part.of_shiftZeros {s t : State} {n : Nat} (h : Part (s.shiftZeros n) t) : Part s t where
  time := h.time
  links := h.links
  lock hl := by
    obtain ⟨h1, h2, h3, h4⟩ := h.lock hl
    exact ⟨h1, h2, h3, h4⟩
  flagged := h.flagged
  noted := h.noted
  sorted := h.sorted
  steady hs := h.steady ((Move.shiftZeros s n).steady hs)
  table := h.table
  unknown := h.unknown
  race hr := h.race (hr.of_eq rfl rfl)

theorem Event.overrun (s : State) (n : Nat) : Event s (s.shiftZeros n).overrun :=
  ((Move.shiftZeros s n).trans (.overrun _)).silent ⟨rfl, rfl, rfl⟩ ⟨rfl, rfl, rfl⟩ ⟨rfl, rfl⟩

theorem Move.completeReply (s : State) : Move s s.completeReply := by
  refine .setReport s _ rfl (fun _ => id) fun ⟨h1, h2, h3, h4⟩ => ⟨h1, h2, ?_, ?_⟩ <;> dsimp only <;> split <;> simp_all

theorem Event.badFrame (s : State) (w : Result) (n : Nat) : Event s (s.badFrame w n) := by
  have hmove : Move s (s.badFrame w n) := by
    unfold State.badFrame
    dsimp only
    refine (Move.shiftZeros s n).trans ?_
    split
    · exact .overrun _
    · exact (Move.loadReply _ none w []).trans (.completeReply _)
  obtain ⟨-, hrace, -, htimer, hnews⟩ := s.badFrame_blocks w n
  exact hmove.silent hrace hnews htimer

/-- A request whose server does a part of an event. -/
theorem Did.request {s : State} {k : RequestKind} {args : List Byte} {serve : State → Served}
    (h : ∀ u, Part u (serve u).state) : Did s (s.takeRequest k args serve) := by
  rcases s.takeRequestWith_cases closeEvent k args serve with he | he | he <;> rw [State.takeRequest, he]
  · exact (Event.badFrame s _ _).toDid
  · exact (Event.overrun s _).toDid
  · exact ((h _).of_shiftZeros.then (.loadReply _ _ _ _)).close _

/-! ## Guards of a server (R59, R132, R156) -/

section Guards

variable {s : State}

theorem Part.refl (s : State) : Part s s := (Move.refl s).toPart

theorem Part.withArgs {α : Type} {a : Option α} {f : α → Served} (h : ∀ x, a = some x → Part s (f x).state) :
    Part s (withArgs a s f).state := by
  rcases withArgs_cases a s f with ⟨-, he⟩ | ⟨x, hx, he⟩ <;> rw [he]
  · exact .refl s
  · exact h x hx

theorem Part.unlessRolling {f : Served} (h : Part s f.state) : Part s (unlessRolling s f).state := by
  rcases unlessRolling_cases s f with ⟨-, he⟩ | ⟨-, he⟩ <;> rw [he]
  · exact .refl s
  · exact h

theorem Part.withRecord {n : Nat} {f : Record → Served} (h : ∀ r, s.record? n = some r → Part s (f r).state) :
    Part s (withRecord s n f).state := by
  rcases withRecord_cases s n f with ⟨-, he⟩ | ⟨r, hr, he⟩ <;> rw [he]
  · exact .refl s
  · exact h r hr

/-- A server that refuses unless a condition holds. -/
theorem Part.guarded {c : Prop} [Decidable c] {a : Served} {w : Result} (h : c → Part s a.state) :
    Part s (if c then a else refuse s w).state := by
  split
  · exact h ‹_›
  · exact .refl s

theorem Part.barred {c : Prop} [Decidable c] {a : Served} {w : Result} (h : ¬c → Part s a.state) :
    Part s (if c then refuse s w else a).state := by
  split
  · exact .refl s
  · exact h ‹_›

theorem Part.sessionRequest {args : List Byte} {allowed : Bool} {f : State → Served}
    (h : allowed = true → Part s (f s).state) : Part s (sessionRequest args s allowed f).state :=
  .withArgs fun _ _ => .unlessRolling (.guarded h)

end Guards

theorem RacePart.part {s t : State} (h : RacePart s t) : Part s t := h.move.toPart

/-- An argument read at all has passed its range check. -/
theorem checked_some {α : Type} {ok : α → Bool} {a b : α} (h : checked ok a = some b) : ok b = true := by
  unfold checked at h
  split at h
  · exact Option.some.inj h ▸ ‹_›
  · exact nomatch h

/-! ## Requests on the time base, the links and the circuit (01, 02) -/

theorem Move.raiseTime (b s : State) : Move s (raiseTime b s) := by
  unfold Machine.raiseTime
  split
  · exact .refl s
  · exact .raise s .time

theorem Part.serveSelectSource (s : State) (x : Source) : Part s (serveSelectSource s x).state := by
  unfold Machine.serveSelectSource
  split
  · split
    · exact .refl s
    · exact ((Move.setTime s (.goFree _)).trans (.raiseTime s _)).toPart
  · refine .barred fun hq => ?_
    split
    · exact ((Move.setTime s (.goLocked (not_not.1 hq))).trans (.raiseTime s _)).toPart
    · exact .refl s

/-- A link set anew, with what the lock covers kept while it is held. -/
theorem Part.setLink (s : State) (l : LinkNo) {k : Link} (hflags : k.flags = (s.link l).flags)
    (hlegal : (s.link l).legal → k.legal)
    (hlock : s.session.locked = true → k.role = (s.link l).role ∧ k.linePos = (s.link l).linePos ∧
      k.settings.latency = (s.link l).settings.latency) : Part s (s.setLink l k) where
  time := .refl _
  links hl j := by
    rw [State.link_setLink]
    split
    · exact hlegal (hl l)
    · exact hl j
  lock hs := by
    obtain ⟨hrole, hpos, hlatency⟩ := hlock hs
    refine ⟨rfl, fun j => ?_, fun j => ?_, fun j => ?_⟩ <;> rw [State.link_setLink] <;> split
    all_goals first | rfl | (subst_vars; assumption)
  flagged j f hclear hset := by
    rw [State.link_setLink] at hset
    split at hset
    · rename_i hj
      rw [hflags, ← hj, hclear] at hset
      exact nomatch hset
    · rw [hclear] at hset
      exact nomatch hset
  noted _ hn := absurd rfl hn
  sorted := id
  steady := id
  table := id
  unknown _ := id
  race hr := hr.of_eq rfl rfl

theorem SetLoopArgs.parse_inRange {bs : List Byte} {a : SetLoopArgs} (h : SetLoopArgs.parse bs = some a) :
    a.inRange = true := by
  unfold SetLoopArgs.parse at h
  split at h
  · split at h
    · exact checked_some h
    · exact nomatch h
  · exact nomatch h

/-- A link that keeps its place takes new settings (R18). -/
theorem Link.legal.retimed {k : Link} (h : k.legal) {c : LinkSettings} (hc : c.inRange = true) : (k.retimed c).legal := by
  obtain ⟨h1, h2, -, h4, h5, h6, h7⟩ := h
  refine ⟨h1, h2, hc, h4, h5, ?_, h7⟩
  rw [show (k.retimed c).state = k.state from rfl, h6]
  simp only [Link.retimed]
  split <;> simp

/-- A link at a new place (R19). -/
theorem Link.moved_legal (k : Link) {a : SetLoopArgs} (ha : a.inRange = true) : (k.moved a).legal := by
  simp only [SetLoopArgs.inRange, Bool.and_eq_true, Bool.or_eq_true, within, decide_eq_true_eq] at ha
  obtain ⟨hpos, hsettings⟩ := ha
  refine ⟨?_, ?_, hsettings, ?_, ?_, ?_, by simp [Link.moved], by simp [Link.moved], by simp [Link.moved],
    by simp [Link.moved], by simp [Link.moved]⟩
  · by_cases hr : a.role = .line <;> simp [Link.moved, SetLoopArgs.position, hr]
  · intro p hp
    by_cases hr : a.role = .line
    · simp only [Link.moved, SetLoopArgs.position, hr, if_true, Option.mem_def, Option.some.injEq] at hp
      simp_all
      omega
    · simp [Link.moved, SetLoopArgs.position, hr] at hp
  · by_cases hr : a.role = .off <;> cases hf : k.framed <;> simp [Link.moved, derivedState, hr, hf]
  · intro hr
    have hr' : a.role ≠ .off := hr
    cases hf : k.framing <;> simp [Link.moved, derivedState, hr', hf, Link.framed]
  · by_cases hr : a.role = .off <;> cases hf : k.framed <;> simp [Link.moved, derivedState, hr, hf]

theorem Part.serveSetLoop (s : State) {a : SetLoopArgs} (ha : a.inRange = true) : Part s (serveSetLoop s a).state := by
  have hsettings : a.settings.inRange = true := by
    simp only [SetLoopArgs.inRange, Bool.and_eq_true] at ha
    exact ha.2
  unfold Machine.serveSetLoop
  refine .barred fun hfree => ?_
  have hkeeps : s.session.locked = true → samePlace (s.link a.link) a = true ∧
      (s.link a.link).settings.latency = a.settings.latency := fun hl => by
    simpa [hl, keepsLocked] using hfree
  split
  · have hset : Part s (s.setLink a.link ((s.link a.link).retimed a.settings)) :=
      .setLink s a.link rfl (fun hk => hk.retimed hsettings) fun hl => ⟨rfl, rfl, (hkeeps hl).2.symm⟩
    simp only [accept, State.retimeLink]
    split
    · rename_i hdue
      exact hset.then (.silenceHappens hdue.2)
    · exact hset
  · rename_i hmoves
    have hset : Part s (s.setLink a.link ((s.link a.link).moved a)) :=
      .setLink s a.link rfl (fun _ => Link.moved_legal _ ha) fun hl => absurd (hkeeps hl).1 hmoves
    simp only [accept, State.moveLink]
    refine Part.then ?_ (RacePart.remapRecords _).move
    split
    · exact hset
    · exact hset.then (.setLoopFlag _ _ _)

/-- The circuit settings written, which the lock covers (R21, R22). -/
theorem Part.setCircuit {s : State} (h : s.session.locked = false) (c : Circuit) : Part s { s with circuit := c } where
  time := .refl _
  links := id
  lock hl := absurd (hl.symm.trans h) (by simp)
  flagged _ _ h h' := absurd (h.symm.trans h') (by simp)
  noted _ hn := absurd rfl hn
  sorted := id
  steady := id
  table := id
  unknown _ := id
  race hr := hr.of_eq rfl rfl

theorem getElem_mapLinks (f : Link → Link) (v : Vector Link 8) (l : LinkNo) : (mapLinks f v)[l] = f v[l] := by
  fin_cases l <;> rfl

theorem hasFlag_clearFlags {k : Link} {m : Mask 10} {f : LoopFlag} (h : hasFlag (k.clearFlags m).flags f = true) :
    hasFlag k.flags f = true := by
  simp only [hasFlag, hasBit, Link.clearFlags, BitVec.getLsbD_and, Bool.and_eq_true] at h
  exact h.1

theorem LinkStep.clearFlags (k : Link) (m : Mask 10) : LinkStep k (k.clearFlags m) :=
  ⟨rfl, rfl, rfl, fun _ => hasFlag_clearFlags, id⟩

theorem Part.clearLoopFlags (s : State) (a : ClearFlagsArgs) : Part s (s.clearLoopFlags a) := by
  unfold State.clearLoopFlags
  split
  · exact (Move.setLink s _ (.clearFlags _ _)).toPart
  · refine (Move.setLinks s fun l => ?_).toPart
    rw [getElem_mapLinks]
    exact .clearFlags _ _

/-! ## Requests on records (04) -/

theorem parseCapacity_slotOk {bs : List Byte} {n : Nat} (h : parseCapacity bs = some n) : slotOk n = true := by
  unfold parseCapacity at h
  split at h
  · exact checked_some h
  · exact nomatch h

theorem Part.serveEnrol (s : State) (a : EnrolArgs) : Part s (serveEnrol s a).state := by
  refine .unlessRolling (.barred fun hcode => .barred fun hcar => ?_)
  split
  · exact (RacePart.enrol (by simpa using hcode) (by simpa using hcar) ‹_›).part
  · exact .refl s

theorem Part.serveAmend (s : State) (a : AmendArgs) : Part s (serveAmend s a).state :=
  .unlessRolling (.withRecord fun _ hr => .barred fun hcode => .barred fun hcar =>
    (RacePart.amend hr (Bool.eq_false_iff.2 hcode) (Bool.eq_false_iff.2 hcar)).part)

theorem Part.serveRetire (s : State) (n : Nat) : Part s (serveRetire s n).state :=
  .unlessRolling (.withRecord fun _ hr => .guarded fun hm =>
    (RacePart.putAndLeave hr (by rw [Record.retire, Record.closePit_eq]; rfl) (fun hl => hl.retire hm) _).part)

theorem Part.serveReinstate (s : State) (n : Nat) : Part s (serveReinstate s n).state :=
  .unlessRolling (.withRecord fun r hr => .guarded fun hs =>
    (RacePart.putSame (r' := r.reinstate _) hr rfl fun hl => hl.reinstate hs).part)

theorem Part.serveExclude (s : State) (n : Nat) : Part s (serveExclude s n).state := by
  refine .unlessRolling (.withRecord fun _ hr => ?_)
  split
  · exact .refl s
  · exact (RacePart.putAndLeave hr (by rw [Record.exclude, Record.closePit_eq]; rfl) (fun hl => hl.exclude) _).part

theorem Part.serveRelease (s : State) (n : Nat) : Part s (serveRelease s n).state :=
  .unlessRolling (.withRecord fun _ hr => .guarded fun _ => (RacePart.release hr).part)

theorem Part.serveAdjust (s : State) (a : AdjustArgs) : Part s (serveAdjust s a).state :=
  .unlessRolling (.withRecord fun r hr => (RacePart.putSame (r' := r.adjusted a) hr rfl fun hl => hl.adjusted a).part)

theorem Part.serveReadRecord (s : State) (a : ReadRecordArgs) : Part s (serveReadRecord s a).state := by
  refine .unlessRolling ?_
  split
  · exact .withRecord fun r hr => (RacePart.putSame hr (r.identity_readOff _) fun hl => hl.readOff _).part
  · exact .refl s

theorem Part.serveSetCapacity (s : State) {n : Nat} (hn : slotOk n = true) : Part s (serveSetCapacity s n).state :=
  .unlessRolling (.guarded fun _ => (RacePart.setCapacity s hn).part)

theorem Part.serveDismiss (s : State) (a : DismissArgs) : Part s (serveDismiss s a).state := by
  unfold Machine.serveDismiss
  split
  · exact ((RacePart.dismissAll s).trans (.clearFull _ _)).part
  · exact .guarded fun _ => ((RacePart.forget s _).trans (.clearFull _ _)).part

/-! ## Requests on the session (08, 09) -/

theorem Part.serveSessionSetup (s : State) (c : SessionSetup) : Part s (serveSessionSetup s c).state :=
  .unlessRolling (.barred fun _ => (RacePart.sessionSetup s c).part)

theorem Part.serveRollover (s : State) (a : RolloverArgs) : Part s (serveRollover s a).state :=
  .unlessRolling (.guarded fun hp => .barred fun _ => (RacePart.goRolling hp a).part)

/-! ## Requests on the reporting unit (10) -/

/-- The reporting unit written, with changed slots or causes dropped. -/
theorem Part.setReport (s : State) {r : Reporting} (hsorted : s.report.changed.Pairwise (· < ·) → r.changed.Pairwise (· < ·))
    (hsteady : s.report.steady → r.steady) : Part s { s with report := r } where
  time := .refl _
  links := id
  lock _ := ⟨rfl, fun _ => rfl, fun _ => rfl, fun _ => rfl⟩
  flagged _ _ h h' := absurd (h.symm.trans h') (by simp)
  noted _ hn := absurd rfl hn
  sorted := hsorted
  steady := hsteady
  table := id
  unknown _ := id
  race hr := hr.of_eq rfl rfl

theorem Part.acknowledge (s : State) : Part s s.acknowledge := by
  rw [State.acknowledge_eq]
  exact .setReport s id id

theorem parseModeration_le {bs : List Byte} {n : Nat} (h : parseModeration bs = some n) : n ≤ 100 := by
  unfold parseModeration at h
  split at h
  · simpa [within] using checked_some h
  · exact nomatch h

/-! ## Events that are no requests -/

theorem Event.markIssue (s : State) : Event s s.markIssue := by
  unfold State.markIssue
  split
  · rename_i hdue
    have hlinks : Move (s.setTime s.time.issueMark)
        { s.setTime s.time.issueMark with links := mapLinks (Link.sendMark s.time.issueMark.mark) s.links } := by
      refine .setLinks _ fun l => ?_
      rw [getElem_mapLinks]
      unfold Link.sendMark
      split
      · exact .refl _
      · exact ⟨rfl, rfl, rfl, fun _ => id, id⟩
    have hmove := (Move.setTime s (.issueMark hdue)).trans hlinks
    dsimp only
    split
    · exact (hmove.trans (.raise _ .time)).settle id
    · exact hmove.settle id
  · exact .refl s

/-- The time base written, with TIME raised where the monitor or the mode changed (R14). -/
theorem Event.retime (s : State) {c : TimeBase} (h : TimeStep s.time c) :
    Event s (raiseTime s (s.setTime c)).settleAttention := by
  refine ((Move.setTime s h).trans (.raiseTime s _)).settle (KeepsRace.orderAgrees ?_)
  unfold Machine.raiseTime
  split <;> exact ⟨rfl, rfl, rfl⟩

theorem Event.absenceExpiry (s : State) : Event s s.absenceExpiry := by
  unfold State.absenceExpiry
  split
  · exact .retime s (TimeStep.lose _).1
  · exact .refl s

theorem Event.timeLimitExpiry (s : State) : Event s s.timeLimitExpiry := by
  unfold State.timeLimitExpiry
  split
  · rename_i hdue
    simp only [State.timeLimitDue, Bool.and_eq_true] at hdue
    exact (RacePart.timeLimitHappens hdue.1).move.close s
  · exact .refl s

theorem Event.closeTimeoutExpiry (s : State) : Event s s.closeTimeoutExpiry := by
  unfold State.closeTimeoutExpiry
  split
  · rename_i hdue
    simp only [State.closeTimeoutDue, Bool.and_eq_true, decide_eq_true_eq] at hdue
    exact (RacePart.closeSession hdue.1).move.close s
  · exact .refl s

theorem Event.moderationExpiry (s : State) : Event s s.moderationExpiry := by
  unfold State.moderationExpiry
  split
  · exact (Move.setReport s (r := s.endModeration.report) s.freeDraws rfl (fun _ => id) id).settle id
  · exact .refl s

theorem Event.startEdge (s : State) : Event s s.startEdge := by
  unfold State.startEdge
  split
  · exact (RacePart.goGreen ‹_› _).move.close s
  · exact .refl s

theorem Event.rolloverStep (s : State) : Event s s.rolloverStep := by
  unfold State.rolloverStep
  split
  · split
    · exact (RacePart.rollStep ‹_› _).move.close s
    · exact .refl s
  · exact .refl s

theorem Event.replySelection (s : State) (n : Nat) : Event s (s.replySelection n) := by
  unfold State.replySelection
  dsimp only
  split
  · rename_i hready
    refine (Move.setReport s s.freeDraws ?_ ?_ ?_).silent ⟨rfl, rfl, rfl⟩ ⟨rfl, rfl, rfl⟩ ⟨rfl, rfl⟩
    · rfl
    · exact fun _ => id
    · exact fun ⟨h1, _, h3, _⟩ => ⟨h1, rfl, h3, fun _ => hready⟩
  · refine (Move.setReport s (s.freeDraws + 1) ?_ ?_ ?_).silent ⟨rfl, rfl, rfl⟩ ⟨rfl, rfl, rfl⟩ ⟨rfl, rfl⟩
    · rfl
    · exact fun _ => id
    · exact fun ⟨h1, _, h3, h4⟩ => ⟨h1, rfl, h3, h4⟩

theorem Event.hit (s : State) (l : LinkNo) (code : BitVec 24) (m : BitVec 8) (offset : BitVec 16) (strength : BitVec 8) :
    Event s (s.takeReport l fun s =>
      closeEvent s
        (if codeOk code.toNat ∧ offset.toNat ≤ 9999 then s.takeHit l code.toNat m.toNat offset.toNat strength.toNat
         else s.corruptReport l)) := by
  refine .takeReport s l fun t hmove _ hrole => ?_
  refine Move.close (hmove.trans ?_) t
  split
  · exact .takeHit hrole _ _ _ _
  · exact .setLoopFlag t l _

end Sys2Proof.Machine
end

section
/-! What every step does, command by command, and the statements that every step keeps something, read off it (01 to 10):
circuit time, the time base, the links, the lock, the flags and LOOPS, the table and the unknown list, the changed-slot set,
the running order, the session and the records, the reporting unit. -/

namespace Sys2Proof.Machine

/-! ## One command -/

/-- Every command but the two resets and the two ticks. -/
theorem exec_did (s : State) (c : Instr) (hpin : c ≠ .pinReset) (hraw : c ≠ .rawTick) (hcorrective : c ≠ .correctiveTick)
    (htables : ∀ a, c ≠ .resetTables a) : ∃ t, exec c s = .next t ∧ Did s t := by
  cases c with
  | pinReset => exact absurd rfl hpin
  | rawTick => exact absurd rfl hraw
  | correctiveTick => exact absurd rfl hcorrective
  | resetTables a => exact absurd rfl (htables a)
  | markIssue => exact ⟨_, rfl, (Event.markIssue s).toDid⟩
  | refEdge => exact ⟨_, rfl, (Event.retime s (.edge _)).toDid⟩
  | absenceExpiry => exact ⟨_, rfl, (Event.absenceExpiry s).toDid⟩
  | startEdge => exact ⟨_, rfl, (Event.startEdge s).toDid⟩
  | framingGained l =>
    refine ⟨_, rfl, ((Move.gainFraming s l).settle (KeepsRace.orderAgrees ?_)).toDid⟩
    rcases s.gainFraming_cases l with ⟨-, -, he⟩ | ⟨-, he⟩ <;> rw [he]
    · exact (s.setLink l _).setLoopFlag_race l _
    · exact ⟨rfl, rfl, rfl⟩
  | framingLost l => exact ⟨_, rfl, (Event.loseFraming s l).toDid⟩
  | hit l code m o x => exact ⟨_, rfl, (Event.hit s l code m o x).toDid⟩
  | echo l m =>
    exact ⟨_, rfl, (Event.takeReport s l fun t hmove hrace _ =>
      (hmove.trans (.takeEcho t l _)).settle (hrace.trans (t.takeEcho_race l _)).orderAgrees).toDid⟩
  | noise l v =>
    exact ⟨_, rfl, (Event.takeReport s l fun t hmove hrace _ =>
      (hmove.trans (.takeNoise t l _)).settle (hrace.trans (t.takeNoise_race l _)).orderAgrees).toDid⟩
  | invalidReport l =>
    exact ⟨_, rfl, (Event.takeReport s l fun t hmove hrace _ =>
      (hmove.trans (.setLoopFlag t l _)).settle (hrace.trans (t.setLoopFlag_race l _)).orderAgrees).toDid⟩
  | silenceExpiry l => exact ⟨_, rfl, (Event.silenceExpiry s l).toDid⟩
  | closeExpiry l code => exact ⟨_, rfl, (Event.closeExpiry s l code).toDid⟩
  | guardRemoval l code => exact ⟨_, rfl, (Event.guardRemoval s l code).toDid⟩
  | timeLimitExpiry => exact ⟨_, rfl, (Event.timeLimitExpiry s).toDid⟩
  | closeTimeoutExpiry => exact ⟨_, rfl, (Event.closeTimeoutExpiry s).toDid⟩
  | moderationExpiry => exact ⟨_, rfl, (Event.moderationExpiry s).toDid⟩
  | frameError n => exact ⟨_, rfl, (Event.badFrame s _ n).toDid⟩
  | unknownKind k a => exact ⟨_, rfl, (Event.badFrame s _ _).toDid⟩
  | replySelection n => exact ⟨_, rfl, (Event.replySelection s n).toDid⟩
  | replyCompletion =>
    exact ⟨_, rfl, ((Move.completeReply s).silent ⟨rfl, rfl, rfl⟩ ⟨rfl, rfl, rfl⟩ ⟨rfl, rfl⟩).toDid⟩
  | selectSource a => exact ⟨_, rfl, .request fun u => .withArgs fun x _ => .serveSelectSource u x⟩
  | readTime a => exact ⟨_, rfl, .request fun u => .withArgs fun _ _ => .refl u⟩
  | setLoop a => exact ⟨_, rfl, .request fun u => .withArgs fun _ hx => .serveSetLoop u (SetLoopArgs.parse_inRange hx)⟩
  | setSector a =>
    exact ⟨_, rfl, .request fun u => .withArgs fun _ _ => .barred fun hl => .setCircuit (Bool.eq_false_iff.2 hl) _⟩
  | setPit a =>
    exact ⟨_, rfl, .request fun u => .withArgs fun _ _ => .barred fun hl => .setCircuit (Bool.eq_false_iff.2 hl) _⟩
  | readLoop a => exact ⟨_, rfl, .request fun u => .withArgs fun _ _ => .refl u⟩
  | clearLoopFlags a => exact ⟨_, rfl, .request fun u => .withArgs fun x _ => .clearLoopFlags u x⟩
  | enrol a => exact ⟨_, rfl, .request fun u => .withArgs fun x _ => .serveEnrol u x⟩
  | amend a => exact ⟨_, rfl, .request fun u => .withArgs fun x _ => .serveAmend u x⟩
  | retire a => exact ⟨_, rfl, .request fun u => .withArgs fun n _ => .serveRetire u n⟩
  | reinstate a => exact ⟨_, rfl, .request fun u => .withArgs fun n _ => .serveReinstate u n⟩
  | exclude a => exact ⟨_, rfl, .request fun u => .withArgs fun n _ => .serveExclude u n⟩
  | release a => exact ⟨_, rfl, .request fun u => .withArgs fun n _ => .serveRelease u n⟩
  | adjust a => exact ⟨_, rfl, .request fun u => .withArgs fun x _ => .serveAdjust u x⟩
  | readRecord a => exact ⟨_, rfl, .request fun u => .withArgs fun x _ => .serveReadRecord u x⟩
  | setCapacity a =>
    exact ⟨_, rfl, .request fun u => .withArgs fun _ hn => .serveSetCapacity u (parseCapacity_slotOk hn)⟩
  | readUnknown a => exact ⟨_, rfl, .request fun u => .withArgs fun _ _ => .refl u⟩
  | dismissUnknown a => exact ⟨_, rfl, .request fun u => .withArgs fun x _ => .serveDismiss u x⟩
  | readOrder a => exact ⟨_, rfl, .request fun u => .withArgs fun _ _ => .unlessRolling (.refl u)⟩
  | sessionSetup a => exact ⟨_, rfl, .request fun u => .withArgs fun x _ => .serveSessionSetup u x⟩
  | arm a =>
    exact ⟨_, rfl, .request fun u => .sessionRequest fun hp => .guarded fun hc =>
      (RacePart.arm (of_decide_eq_true hp) hc).part⟩
  | green a => exact ⟨_, rfl, .request fun u => .sessionRequest fun hp => (RacePart.goGreen (of_decide_eq_true hp) _).part⟩
  | caution a => exact ⟨_, rfl, .request fun u => .sessionRequest fun hp => (RacePart.goCaution (of_decide_eq_true hp)).part⟩
  | clearCaution a =>
    exact ⟨_, rfl, .request fun u => .sessionRequest fun hp => (RacePart.clearCaution (of_decide_eq_true hp)).part⟩
  | suspend a => exact ⟨_, rfl, .request fun u => .sessionRequest fun hp => (RacePart.goSuspended hp).part⟩
  | resume a => exact ⟨_, rfl, .request fun u => .sessionRequest fun hp => (RacePart.goResumed (of_decide_eq_true hp)).part⟩
  | chequer a => exact ⟨_, rfl, .request fun u => .sessionRequest fun hp => (RacePart.goChequered hp).part⟩
  | close a => exact ⟨_, rfl, .request fun u => .sessionRequest fun hp => (RacePart.goClosed hp).part⟩
  | rollover a => exact ⟨_, rfl, .request fun u => .withArgs fun x _ => .serveRollover u x⟩
  | rolloverStep => exact ⟨_, rfl, (Event.rolloverStep s).toDid⟩
  | haltRollover a =>
    exact ⟨_, rfl, .request fun u => .withArgs fun _ _ => .guarded fun hp => (RacePart.haltRollover hp).part⟩
  | readSession a => exact ⟨_, rfl, .request fun u => .withArgs fun _ _ => .unlessRolling (.refl u)⟩
  | readSummary a => exact ⟨_, rfl, .request fun u => .withArgs fun _ _ => .setReport u id id⟩
  | readChanges a => exact ⟨_, rfl, .request fun u => .withArgs fun _ _ => .setReport u (fun _ => .nil) id⟩
  | acknowledge a => exact ⟨_, rfl, .request fun u => .withArgs fun _ _ => .acknowledge u⟩
  | setModeration a =>
    exact ⟨_, rfl, .request fun u => .withArgs fun _ hn =>
      .setReport u id fun ⟨_, hrest⟩ => ⟨parseModeration_le hn, hrest⟩⟩

/-! ## The ticks (R1 to R3) -/

theorem Event.forLinks {f : State → LinkNo → State} (h : ∀ s l, Event s (f s l)) (s : State) : Event s (s.forLinks f) :=
  (((((((h s 0).trans (h _ 1)).trans (h _ 2)).trans (h _ 3)).trans (h _ 4)).trans (h _ 5)).trans (h _ 6)).trans (h _ 7)

theorem Event.foldl {α : Type} {f : State → α → State} (h : ∀ s a, Event s (f s a)) (xs : List α) (s : State) :
    Event s (xs.foldl f s) := by
  induction xs generalizing s with
  | nil => exact .refl s
  | cons a xs ih => exact (h s a).trans (ih _)

theorem Event.takeEntries (s : State) (l : LinkNo) : Event s (s.takeEntries l) :=
  .foldl (fun t code => (Event.closeExpiry t l code).trans (.guardRemoval _ l code)) _ s

theorem State.absenceExpiry_absenceDue (s : State) : s.absenceExpiry.time.absenceDue = false := by
  unfold State.absenceExpiry
  split
  · have htime : (raiseTime s (s.setTime s.time.lose)).settleAttention.time = s.time.lose := by
      unfold raiseTime
      split <;> rfl
    rw [htime]
    exact (TimeStep.lose _).2
  · exact Bool.eq_false_iff.2 ‹_›

/-- Everything due is taken, and no absence expiry is left due (R2, R9). -/
theorem Event.takeDue (s : State) : Event s s.takeDue ∧ s.takeDue.time.absenceDue = false := by
  have hrest : Event s.markIssue.absenceExpiry s.takeDue := by
    unfold State.takeDue
    dsimp only
    exact ((((((Event.forLinks Event.loseFraming _).trans (.forLinks Event.silenceExpiry _)).trans
      (.forLinks Event.takeEntries _)).trans (.timeLimitExpiry _)).trans (.closeTimeoutExpiry _)).trans
      (.moderationExpiry _))
  exact ⟨((Event.markIssue s).trans (.absenceExpiry _)).trans hrest,
    hrest.time.absence (State.absenceExpiry_absenceDue _)⟩

/-- A tick is an event, and then the clock's own tick (R1). -/
def Ticked (s t : State) : Prop := ∃ u, Event s u ∧ u.time.absenceDue = false ∧ t = u.setTime u.time.tick

theorem State.tick_ticked (s : State) : Ticked s s.tick := by
  obtain ⟨hevent, hdue⟩ := Event.takeDue s
  exact ⟨_, hevent, hdue, rfl⟩

/-- The ticks, a CORRECTIVE_TICK that is not due doing nothing (R3). -/
theorem exec_ticked (s : State) {c : Instr} (h : c = .rawTick ∨ c = .correctiveTick) :
    ∃ t, exec c s = .next t ∧ (Ticked s t ∨ Did s t) := by
  rcases h with rfl | rfl
  · exact ⟨_, rfl, .inl s.tick_ticked⟩
  · refine ⟨_, rfl, ?_⟩
    unfold State.correctiveTick
    split
    · exact .inl s.tick_ticked
    · exact .inr (Event.refl s).toDid

/-! ## The soft reset (R35, R51, R166) -/

theorem Link.legal.softReset {k : Link} (h : k.legal) : k.softReset.legal := by
  obtain ⟨h1, h2, h3, -⟩ := h
  refine ⟨h1, h2, h3, ?_, ?_, ?_, by simp [Link.softReset], by simp [Link.softReset], by simp [Link.softReset],
    by simp [Link.softReset], by simp [Link.softReset]⟩
  · by_cases hr : k.role = .off <;> cases hf : k.framed <;> simp [Link.softReset, derivedState, hr, hf]
  · intro hr
    have hr' : k.role ≠ .off := hr
    cases hf : k.framing <;> simp [Link.softReset, derivedState, hr', hf, Link.framed]
  · by_cases hr : k.role = .off <;> cases hf : k.framed <;> simp [Link.softReset, derivedState, hr, hf]

theorem Session.reset_legal : Session.reset.legal := by
  simp [Session.legal, Session.reset, underWay]

theorem CompetitorTable.reset_legal : CompetitorTable.reset.legal ∧ CompetitorTable.reset.unknownLegal := by
  simp [CompetitorTable.legal, CompetitorTable.unknownLegal, CompetitorTable.reset]

theorem State.link_softReset (s : State) (l : LinkNo) : s.softReset.link l = (s.link l).softReset :=
  getElem_mapLinks _ _ l

theorem Done.softReset (s : State) (k : RequestKind) (n : Nat) (w : Result) (b : List Byte) :
    Done s (((s.shiftZeros n).softReset.loadReply (some k) w b)).settleAttention where
  time := .refl _
  links hl l := by
    change (s.softReset.link l).legal
    rw [State.link_softReset]
    exact (hl l).softReset
  lock _ := by
    refine ⟨rfl, fun l => ?_, fun l => ?_, fun l => ?_⟩
    · exact (congrArg Link.role (State.link_softReset s l) :)
    · exact (congrArg Link.linePos (State.link_softReset s l) :)
    · exact (congrArg (fun k => k.settings.latency) (State.link_softReset s l) :)
  flagged l f _ hset := by
    change hasFlag (s.softReset.link l).flags f = true at hset
    rw [State.link_softReset] at hset
    simp [Link.softReset, hasFlag, hasBit] at hset
  table _ := CompetitorTable.reset_legal.1
  unknown _ _ := CompetitorTable.reset_legal.2
  race _ := ⟨Session.reset_legal, fun _ hq => nomatch hq⟩
  order _ := ⟨rfl, fun _ hq => nomatch hq⟩
  report hl := by
    obtain ⟨-, -, -, -, hmod, -⟩ := hl
    exact Reporting.settle_legal .nil ⟨hmod, rfl, by simp [State.loadReply], by simp [State.loadReply]⟩

/-- A RESET TABLES frame that is not refused or discarded is the soft reset (R166). -/
theorem exec_resetTables_done (s : State) (a : List Byte) : ∃ t, exec (.resetTables a) s = .next t ∧ Done s t := by
  refine ⟨_, rfl, ?_⟩
  rcases s.takeRequestWith_cases (fun _ t => t.settleAttention) .resetTables a
    (fun s => withArgs (parseNone a) s fun _ => accept s.softReset []) with he | he | he <;> rw [he]
  · exact (Event.badFrame s _ _).toDone
  · exact (Event.overrun s _).toDone
  · rcases withArgs_cases (parseNone a) (s.shiftZeros (a.length + 3)) fun _ =>
      accept (s.shiftZeros (a.length + 3)).softReset [] with ⟨-, hs⟩ | ⟨-, -, hs⟩ <;> rw [hs]
    · exact (((Move.shiftZeros s _).trans (.loadReply _ _ _ _)).settle id).toDone
    · exact Done.softReset s _ _ _ _

/-! ## Every command -/

/-- A command is a pin reset, a tick, or does what `Done` says. -/
theorem exec_cases {s t : State} {c : Instr} (h : exec c s = .next t) :
    (c = .pinReset ∧ t = s.pinReset) ∨ ((c = .rawTick ∨ c = .correctiveTick) ∧ Ticked s t) ∨ Done s t := by
  have hnext : ∀ {u}, exec c s = .next u → u = t := fun hu => Host.Outcome.next.inj (hu.symm.trans h)
  by_cases hpin : c = .pinReset
  · subst hpin
    exact .inl ⟨rfl, (hnext rfl).symm⟩
  by_cases htick : c = .rawTick ∨ c = .correctiveTick
  · obtain ⟨u, hu, hdoes⟩ := exec_ticked s htick
    rw [hnext hu] at hdoes
    exact hdoes.elim (fun ht => .inr (.inl ⟨htick, ht⟩)) fun hd => .inr (.inr hd.toDone)
  by_cases htables : ∃ a, c = .resetTables a
  · obtain ⟨a, rfl⟩ := htables
    obtain ⟨u, hu, hdone⟩ := exec_resetTables_done s a
    exact .inr (.inr (hnext hu ▸ hdone))
  · obtain ⟨u, hu, hdid⟩ := exec_did s c hpin (fun he => htick (.inl he)) (fun he => htick (.inr he))
      fun a he => htables ⟨a, he⟩
    exact .inr (.inr (hnext hu ▸ hdid.toDone))

/-- A step is idle, or takes the front command. -/
theorem step_cases {s t : State} (h : step s = .next t) :
    t = s ∨ ∃ c rest, s.pending = c :: rest ∧ exec c { s with pending := rest } = .next t := by
  unfold step at h
  split at h
  · exact .inl (Host.Outcome.next.inj h).symm
  · exact .inr ⟨_, _, ‹_›, h⟩

/-- A property of the state that ignores the queue, that a pin reset brings about, and that ticks and every other command
keep, is kept by every step. -/
theorem step_keeps {P : State → Prop} (hqueue : ∀ s q, P s → P { s with pending := q }) (hpin : ∀ s : State, P s.pinReset)
    (htick : ∀ s t, Ticked s t → P s → P t) (hdone : ∀ s t, Done s t → P s → P t) {s t : State} (hs : P s)
    (h : step s = .next t) : P t := by
  rcases step_cases h with rfl | ⟨c, rest, -, hexec⟩
  · exact hs
  · have hs' := hqueue s rest hs
    rcases exec_cases hexec with ⟨-, rfl⟩ | ⟨-, ht⟩ | hd
    · exact hpin _
    · exact htick _ t ht hs'
    · exact hdone _ t hd hs'

/-- A property that neither the queue nor the clock bears on needs no case for ticks. -/
theorem step_keeps_done {P : State → Prop} (hqueue : ∀ s q, P s → P { s with pending := q })
    (hclock : ∀ s c, P s → P (s.setTime c)) (hpin : ∀ s : State, P s.pinReset)
    (hdone : ∀ s t, Done s t → P s → P t) {s t : State} (hs : P s) (h : step s = .next t) : P t := by
  refine step_keeps hqueue hpin ?_ hdone hs h
  rintro s t ⟨u, hevent, -, rfl⟩ hs
  exact hclock u _ (hdone s u hevent.toDone hs)

end Sys2Proof.Machine
end

section
/-! The reset state, and the statements that every step, or every command, keeps something (01 to 10). -/

namespace Sys2Proof.Machine

/-! ## Reset and the queue -/

/-- Settles O1: a step is defined on the front command. -/
theorem stepTakesFront : Obligations.StepTakesFront := by
  intro s c rest h
  unfold step
  rw [h]

theorem State.link_reset (l : LinkNo) : State.reset.link l = Link.reset := by
  fin_cases l <;> rfl

theorem State.link_pinReset (s : State) (l : LinkNo) : s.pinReset.link l = Link.reset := State.link_reset l

theorem Link.reset_legal : Link.reset.legal := by decide

/-- Settles O2, the value of each block read off the reset values. -/
theorem pinReset : Obligations.PinReset := by
  intro s
  refine ⟨s.pinReset, rfl, rfl, fun l => ?_, rfl, rfl, rfl, fun _ => rfl, rfl, rfl, rfl, rfl, rfl, rfl, rfl, rfl, rfl, rfl,
    rfl, rfl, rfl, rfl, rfl, rfl, rfl, rfl, rfl, rfl⟩
  rw [State.link_pinReset]
  exact ⟨rfl, rfl, rfl, rfl, rfl, rfl, rfl, rfl, rfl, rfl, rfl⟩

theorem TimeBase.reset_legal : TimeBase.reset.legal := by
  simp [TimeBase.legal, TimeBase.reset]

theorem Reporting.reset_legal : Reporting.reset.legal := by
  simp [Reporting.legal, Reporting.reset, hasCause, hasBit]

theorem State.reset_orderAgrees : State.reset.orderAgrees := ⟨rfl, fun _ hq => nomatch hq⟩

/-- Settles O3, block by block. -/
theorem resetLegal : Obligations.ResetLegal :=
  ⟨TimeBase.reset_legal, fun l => by rw [State.link_reset]; exact Link.reset_legal, Session.reset_legal,
    ⟨State.reset_orderAgrees, Reporting.reset_legal⟩, CompetitorTable.reset_legal.1, CompetitorTable.reset_legal.2⟩

/-! ## Circuit time and the time base (01) -/

/-- Settles O8: every event keeps the clock, and a tick adds its increment after one. -/
theorem timeNeverFalls : Obligations.TimeNeverFalls := by
  intro c s t hmax h hpin
  rcases exec_cases h with ⟨hc, -⟩ | ⟨hc, u, hevent, -, rfl⟩ | hdone
  · exact absurd hc hpin
  · have hnow := hevent.time.now
    have htick : (u.setTime u.time.tick).time.now = min (u.time.now + u.time.increment) 281474976710655 := rfl
    have hstep := u.time.increment_le
    refine ⟨by omega, by omega, fun hraw hcorrective => ?_⟩
    exact (hc.elim hraw hcorrective).elim
  · have hnow := hdone.time.now
    exact ⟨hnow.ge, by omega, fun _ _ => hnow⟩

/-- Settles O9: every event keeps the tables of 01, and a tick that has taken the absence expiry does. -/
theorem timeBaseKept : Obligations.TimeBaseKept := by
  intro s t hs h
  refine step_keeps (P := fun s => s.time.legal) (fun _ _ => id) (fun _ => TimeBase.reset_legal) ?_
    (fun _ _ hd => hd.time.legal) hs h
  rintro s t ⟨u, hevent, hdue, rfl⟩ hl
  exact (hevent.time.legal hl).tick hdue

/-! ## The links and the lock (02) -/

/-- Settles O22. -/
theorem linksKept : Obligations.LinksKept := by
  intro s t hs h
  refine step_keeps_done (P := fun s => ∀ l, (s.link l).legal) (fun _ _ => id) (fun _ _ => id) (fun s l => ?_)
    (fun _ _ hd => hd.links) hs h
  rw [State.link_pinReset]
  exact Link.reset_legal

/-- Settles O23: the requests that write the configuration are refused under the lock, and nothing else writes it. -/
theorem lockHolds : Obligations.LockHolds := by
  intro c s t hl h hpin
  have hsame : SameConfig s t := by
    rcases exec_cases h with ⟨hc, -⟩ | ⟨-, u, hevent, -, rfl⟩ | hdone
    · exact absurd hc hpin
    · exact hevent.config.of_eq rfl rfl
    · exact hdone.lock hl
  exact ⟨hsame.circuit, fun l => ⟨hsame.role l, hsame.linePos l, hsame.latency l⟩⟩

/-- Settles O24: a flag goes from clear to set with LOOPS raised beside it, and no later part of the event drops LOOPS. -/
theorem loopsCause : Obligations.LoopsCause := by
  intro s t l f h hclear hset
  rcases step_cases h with rfl | ⟨c, rest, -, hexec⟩
  · rw [hclear] at hset
    exact nomatch hset
  · rcases exec_cases hexec with ⟨-, rfl⟩ | ⟨-, u, hevent, -, rfl⟩ | hdone
    · rw [State.link_pinReset] at hset
      simp [Link.reset, hasFlag, hasBit] at hset
    · exact hevent.flagged l f hclear hset
    · exact hdone.flagged l f hclear hset

/-! ## The competitor table (04) -/

/-- Settles O34. -/
theorem tableKept : Obligations.TableKept := by
  intro s t hs h
  refine ⟨step_keeps_done (P := fun s => s.table.legal) (fun _ _ => id) (fun _ _ => id)
    (fun _ => CompetitorTable.reset_legal.1) (fun _ _ hd => hd.table) hs h, fun hu => ?_⟩
  have hkeeps := step_keeps_done (P := fun s => s.table.legal ∧ s.table.unknownLegal) (fun _ _ => id) (fun _ _ => id)
    (fun _ => CompetitorTable.reset_legal) (fun _ _ hd ⟨hl, hu⟩ => ⟨hd.table hl, hd.unknown hl hu⟩) ⟨hs, hu⟩ h
  exact hkeeps.2

/-- Settles O35: a record is written with its slot marked (R74), and RECORDS follows at the end of the event (R161). -/
theorem changedSlots : Obligations.ChangedSlots := by
  intro c s t n h hpin htables hn
  by_cases htick : c = .rawTick ∨ c = .correctiveTick
  · obtain ⟨u, hu, hdoes⟩ := exec_ticked s htick
    obtain rfl := Host.Outcome.next.inj (hu.symm.trans h)
    rcases hdoes with ⟨v, hevent, -, rfl⟩ | hdid
    · exact hevent.noted n hn
    · exact hdid.noted n hn
  · obtain ⟨u, hu, hdid⟩ := exec_did s c hpin (fun he => htick (.inl he)) (fun he => htick (.inr he)) htables
    obtain rfl := Host.Outcome.next.inj (hu.symm.trans h)
    exact hdid.noted n hn

/-! ## The order, the session and the reporting unit (07, 08, 10) -/

/-- Settles O46: an event that can move a record ends with the list brought to the keys, and the others leave the race as it
was. -/
theorem orderKept : Obligations.OrderKept := by
  intro s t hs h
  exact step_keeps_done (P := fun s => s.orderAgrees) (fun _ _ => id) (fun _ _ => id) (fun _ => State.reset_orderAgrees)
    (fun _ _ hd => hd.order) hs h

/-- Settles O54, the session and the records together, as a record's state and the session's decide each other's changes. -/
theorem sessionKept : Obligations.SessionKept := by
  intro s t hsession hrecords h
  have hkeeps := step_keeps_done (P := State.RaceLegal) (fun _ _ hr => hr.of_eq rfl rfl)
    (fun _ _ hr => hr.of_eq rfl rfl) (fun _ => ⟨Session.reset_legal, fun _ hq => nomatch hq⟩) (fun _ _ hd => hd.race)
    ⟨hsession, hrecords⟩ h
  exact ⟨hkeeps.session, hkeeps.records⟩

/-- Settles O60: the end of an event settles RECORDS and the latch, and an event without it leaves them alone. -/
theorem reportingKept : Obligations.ReportingKept := by
  intro s t hs h
  exact step_keeps_done (P := fun s => s.report.legal) (fun _ _ => id) (fun _ _ => id) (fun _ => Reporting.reset_legal)
    (fun _ _ hd => hd.report) hs h

end Sys2Proof.Machine
end

section
/-! The time base, command by command (01): the ticks when nothing is due, the marks, the REF monitor. -/

namespace Sys2Proof.Machine

/-! ## Nothing due (R1 to R3) -/

theorem State.forLinks_eq_self {f : State → LinkNo → State} {s : State} (h : ∀ l, f s l = s) : s.forLinks f = s := by
  simp [State.forLinks, h]

/-- Entries that are not due stay (R42, R47). -/
theorem State.takeEntries_quiet {s : State} {l : LinkNo} (h : ∀ q ∈ (s.link l).passings, q.2.due s.now = false) :
    s.takeEntries l = s := by
  refine List.foldl_fixed' (fun code => ?_) _
  have hclose : s.closeExpiry l code = s := by
    unfold State.closeExpiry
    split
    · rename_i p hp
      have hdue := h _ (KeyMap.find_mem hp)
      exact if_neg (by simpa [Entry.due] using hdue)
    · rfl
  rw [hclose]
  unfold State.guardRemoval
  split
  · rename_i g hg
    have hdue := h _ (KeyMap.find_mem hg)
    exact if_neg (by simpa [Entry.due] using hdue)
  · rfl

theorem State.takeDue_of_quiet {s : State} (h : s.quiet) : s.takeDue = s := by
  obtain ⟨hmark, habsence, hframing, hsilence, hentries, hlimit, hclose, hmoderation⟩ := h
  have hlose : ∀ l, s.loseFraming l = s := fun l => if_neg (by
    cases hf : (s.link l).framing with
    | none => simp [State.framingDue, hf, reached]
    | some e => simpa [State.framingDue, hf, reached] using hframing l e hf)
  have hmark' : s.markIssue = s := if_neg (by simp [hmark])
  have habsence' : s.absenceExpiry = s := if_neg (by simp [habsence])
  have hsilence' : ∀ l, s.silenceExpiry l = s := fun l => if_neg (by simp [hsilence l])
  have hlimit' : s.timeLimitExpiry = s := if_neg (by simp [hlimit])
  have hclose' : s.closeTimeoutExpiry = s := if_neg (by simp [hclose])
  have hmoderation' : s.moderationExpiry = s := if_neg (by simp [hmoderation])
  simp only [State.takeDue]
  rw [hmark', habsence', State.forLinks_eq_self hlose, State.forLinks_eq_self hsilence',
    State.forLinks_eq_self fun l => State.takeEntries_quiet (hentries l), hlimit', hclose', hmoderation']

theorem TimeBase.correctiveNext_iff (c : TimeBase) :
    c.correctiveNext = true ↔ c.trim ≠ 0 ∧ c.trimCount + 1 = 1000000 / c.trim.natAbs := by
  unfold TimeBase.correctiveNext trimPeriod
  rw [Bool.and_eq_true, decide_eq_true_iff, decide_eq_true_iff]

/-- A tick that is not corrective (R1, R3). -/
theorem TimeBase.tick_plain {c : TimeBase} (h : c.correctiveNext = false) :
    c.tick = { c with now := min (c.now + 1) 281474976710655, trimCount := if c.trim = 0 then 0 else c.trimCount + 1,
                      absence := if c.monitor = .absent then c.absence else c.absence + 1 } := by
  simp [TimeBase.tick, TimeBase.increment, TimeBase.nextTrimCount, h, Config.maxTime]

/-- A corrective tick (R1, R3). -/
theorem TimeBase.tick_corrective {c : TimeBase} (h : c.correctiveNext = true) :
    c.tick = { c with now := min (c.now + if 0 < c.trim then 2 else 0) 281474976710655, trimCount := 0,
                      absence := if c.monitor = .absent then c.absence else c.absence + 1 } := by
  simp [TimeBase.tick, TimeBase.increment, TimeBase.nextTrimCount, h, Config.maxTime]

/-- Settles O7: with nothing due a tick is the clock's own. -/
theorem ticks : Obligations.Ticks := by
  intro s hquiet
  have htick : s.tick = s.setTime s.time.tick := by rw [State.tick, State.takeDue_of_quiet hquiet]
  refine ⟨fun hplain => ?_, fun hcorrective => ?_⟩
  · have hnext : s.time.correctiveNext = false := by
      rw [← Bool.not_eq_true, TimeBase.correctiveNext_iff]
      exact fun ⟨h0, he⟩ => hplain.elim h0 fun hne => hne he
    calc exec .rawTick s = .next s.tick := rfl
      _ = .next (s.setTime s.time.tick) := by rw [htick]
      _ = _ := by rw [TimeBase.tick_plain hnext]; rfl
  · have hnext := s.time.correctiveNext_iff.2 hcorrective
    calc exec .correctiveTick s = .next s.tick := congrArg Host.Outcome.next (if_pos hnext)
      _ = .next (s.setTime s.time.tick) := by rw [htick]
      _ = _ := by rw [TimeBase.tick_corrective hnext]; rfl

/-! ## Marks (R4, R5, R170) -/

/-- What the end of an event leaves, for one that writes the time base and the links and raises causes but RECORDS. -/
theorem State.settleAttention_written {s u : State} {raised : List Cause} (hl : s.report.legal)
    (hr : .records ∉ raised) (hrace : KeepsRace s u) (hqueue : KeepsQueue s u)
    (hreport : u.report = { s.report with causes := u.report.causes }) (hcauses : RaisesOnly s u raised) :
    KeepsRace s u.settleAttention ∧ KeepsQueue s u.settleAttention ∧ KeepsPort s u.settleAttention ∧
    Reports s u.settleAttention raised := by
  have hport := State.settleAttention_keepsPort u
  obtain ⟨h1, h2, h3, h4, h5⟩ := hport
  refine ⟨hrace, hqueue, ⟨h1.trans ?_, h2.trans ?_, h3.trans ?_, h4.trans ?_, h5.trans ?_⟩,
    State.settleAttention_reports hl hr ?_ hcauses ?_ ⟨?_, ?_⟩⟩
  all_goals rw [hreport]

theorem State.raise_raisesOnly (s : State) (c : Cause) : RaisesOnly s (s.raise c) [c] := fun d => by
  rw [State.raise_report, hasCause_addCause]
  simp [eq_comm]

/-- Settles O10, read off the mark issue that is due. -/
theorem markIssue : Obligations.MarkIssue := by
  intro s hl hlimit hdue
  have hmark : s.time.markDue = true := by simp [TimeBase.markDue, hlimit, Config.markStep, hdue]
  let u : State := { s.setTime s.time.issueMark with links := mapLinks (Link.sendMark s.time.issueMark.mark) s.links }
  have hlink : ∀ l, u.link l = (s.link l).sendMark (s.time.mark + 1) := fun l => getElem_mapLinks _ _ l
  have hissue : s.markIssue = (if s.time.mark + 1 = 4294967295 then u.raise .time else u).settleAttention := by
    simp [State.markIssue, hmark, TimeBase.issueMark, Config.lastMark, u]
  refine ⟨_, rfl, ?_⟩
  rw [hissue]
  split
  · obtain ⟨hrace, hqueue, hport, hreports⟩ := State.settleAttention_written (s := s) (u := u.raise .time)
      (raised := [.time]) hl (by simp) ⟨rfl, rfl, rfl⟩ ⟨rfl, rfl⟩ rfl (u.raise_raisesOnly .time)
    exact ⟨rfl, fun l => hlink l, rfl, hrace, hqueue, hport, hreports⟩
  · obtain ⟨hrace, hqueue, hport, hreports⟩ := State.settleAttention_written (s := s) (u := u) (raised := []) hl (by simp)
      ⟨rfl, rfl, rfl⟩ ⟨rfl, rfl⟩ rfl fun c => by simp [u]
    exact ⟨rfl, fun l => hlink l, rfl, hrace, hqueue, hport, hreports⟩

/-! ## The REF monitor (R6 to R11) -/

/-- The event that writes the time base, TIME raised where the monitor or the mode changed (R14). -/
theorem State.retimed_reports {s : State} (hl : s.report.legal) (c : TimeBase) {raised : List Cause}
    (hraised : raised = if c.monitor = s.time.monitor ∧ c.mode = s.time.mode then [] else [.time]) :
    let t := (raiseTime s (s.setTime c)).settleAttention
    t.time = c ∧ t.links = s.links ∧ t.circuit = s.circuit ∧ KeepsRace s t ∧ KeepsQueue s t ∧ KeepsPort s t ∧
    Reports s t raised := by
  subst hraised
  by_cases hsame : c.monitor = s.time.monitor ∧ c.mode = s.time.mode
  · have he : raiseTime s (s.setTime c) = s.setTime c := if_pos hsame
    rw [he, if_pos hsame]
    exact ⟨rfl, rfl, rfl, State.settleAttention_written hl (by simp) ⟨rfl, rfl, rfl⟩ ⟨rfl, rfl⟩ rfl fun c => by simp⟩
  · have he : raiseTime s (s.setTime c) = (s.setTime c).raise .time := if_neg hsame
    rw [he, if_neg hsame]
    exact ⟨rfl, rfl, rfl, State.settleAttention_written hl (by simp) ⟨rfl, rfl, rfl⟩ ⟨rfl, rfl⟩ rfl
      (s.raise_raisesOnly .time)⟩

theorem TimeBase.edge_absent {c : TimeBase} (h : c.monitor = .absent) :
    c.edge = { c with monitor := .qualifying, goodCount := 0, lastEdge := some c.now, absence := 0 } := by
  simp [TimeBase.edge, h, TimeBase.firstEdge]

/-- A legal part is LOCKED only with a QUALIFIED monitor (R8, R10). -/
theorem TimeBase.legal.qualified_of_locked {c : TimeBase} (h : c.legal) (hm : c.mode = .locked) :
    c.monitor = .qualified := by
  obtain ⟨-, -, -, -, hfree, hlock, -⟩ := h
  cases hs : c.source with
  | internal => exact nomatch hm.symm.trans (hfree.1 hs)
  | reference => exact (hlock hs).1 hm

/-- A loss of the reference takes a legal part from LOCKED to HOLDOVER and leaves any other mode (R10). -/
theorem TimeBase.legal.lostMode {c : TimeBase} (h : c.legal) :
    c.lostMode = if c.mode = .locked then .holdover else c.mode := by
  unfold TimeBase.lostMode Mode.afterLoss
  split
  · rfl
  · exact (if_neg fun hm => ‹¬_› (h.qualified_of_locked hm)).symm

theorem TimeBase.legal.edge_bad {c : TimeBase} (h : c.legal) (habs : c.monitor ≠ .absent)
    (hbad : ¬(999900 ≤ c.absence ∧ c.absence ≤ 1000100)) :
    c.edge = { c with
      monitor := .qualifying, goodCount := 0, mode := if c.mode = .locked then .holdover else c.mode,
      lastInterval := some { ticks := c.absence, verdict := .bad }, lastEdge := some c.now, absence := 0 } := by
  have hverdict : verdictOf c.absence = .bad := if_neg (by simpa [within] using hbad)
  have hmode : c.storeInterval.badInterval.mode = if c.mode = .locked then .holdover else c.mode := h.lostMode
  unfold TimeBase.edge
  rw [if_neg habs, if_neg (by simp [hverdict]), ← hmode]
  simp [TimeBase.badInterval, TimeBase.storeInterval, hverdict]

theorem TimeBase.edge_good {c : TimeBase} (habs : c.monitor ≠ .absent) (hgood : 999900 ≤ c.absence ∧ c.absence ≤ 1000100) :
    c.edge = c.storeInterval.goodInterval c.absence ∧
      c.storeInterval = { c with lastInterval := some { ticks := c.absence, verdict := .good }, lastEdge := some c.now,
                                 absence := 0 } := by
  have hverdict := (verdictOf_good_iff c.absence).2 hgood
  exact ⟨by rw [TimeBase.edge, if_neg habs, if_pos hverdict], by rw [TimeBase.storeInterval, hverdict]⟩

/-- Out of QUALIFIED a legal part whose source is REFERENCE is in HOLDOVER (R8, R10). -/
theorem TimeBase.legal.holdover_iff {c : TimeBase} (h : c.legal) (hq : c.monitor ≠ .qualified) :
    (c.source = .reference ∧ c.mode = .holdover) ↔ c.source = .reference := by
  refine and_iff_left_iff_imp.2 fun hs => ?_
  obtain ⟨-, -, -, -, hfree, hlock, -⟩ := h
  cases hm : c.mode with
  | free => exact nomatch hs.symm.trans (hfree.2 hm)
  | locked => exact absurd ((hlock hs).1 hm) hq
  | holdover => rfl

theorem TimeBase.legal.edge_gains {c : TimeBase} (h : c.legal) (hmon : c.monitor = .qualifying) (h3 : c.goodCount = 3)
    (hgood : 999900 ≤ c.absence ∧ c.absence ≤ 1000100) :
    c.edge = { c with
      goodCount := 4, monitor := .qualified, mode := if c.source = .reference then .locked else c.mode,
      trim := if c.source = .reference then 1000000 - (c.absence : Int) else c.trim,
      trimCount := if c.source = .reference then 0 else c.trimCount,
      lastInterval := some { ticks := c.absence, verdict := .good }, lastEdge := some c.now, absence := 0 } := by
  obtain ⟨hedge, hstore⟩ := TimeBase.edge_good (by simp [hmon]) hgood
  have hhold := h.holdover_iff (by simp [hmon])
  have hgain : c.storeInterval.goodInterval c.absence = c.storeInterval.gain c.absence := by
    simp [TimeBase.goodInterval, TimeBase.storeInterval, hmon, h3]
  rw [hedge, hgain, hstore]
  by_cases hs : c.source = .reference
  · simp [TimeBase.gain, TimeBase.setTrim, trimOf, hs, (hhold.2 hs).2]
  · simp [TimeBase.gain, hs]

theorem TimeBase.edge_counts {c : TimeBase} (hmon : c.monitor = .qualifying) (h3 : c.goodCount < 3)
    (hgood : 999900 ≤ c.absence ∧ c.absence ≤ 1000100) :
    c.edge = { c with
      goodCount := c.goodCount + 1, lastInterval := some { ticks := c.absence, verdict := .good },
      lastEdge := some c.now, absence := 0 } := by
  obtain ⟨hedge, hstore⟩ := TimeBase.edge_good (by simp [hmon]) hgood
  rw [hedge, hstore]
  simp [TimeBase.goodInterval, hmon, h3]

theorem TimeBase.edge_renews {c : TimeBase} (hmon : c.monitor = .qualified)
    (hgood : 999900 ≤ c.absence ∧ c.absence ≤ 1000100) :
    c.edge = { c with
      trim := if c.mode = .locked then 1000000 - (c.absence : Int) else c.trim,
      trimCount := if c.mode = .locked then 0 else c.trimCount,
      lastInterval := some { ticks := c.absence, verdict := .good }, lastEdge := some c.now, absence := 0 } := by
  obtain ⟨hedge, hstore⟩ := TimeBase.edge_good (by simp [hmon]) hgood
  rw [hedge, hstore]
  simp only [TimeBase.goodInterval, hmon, if_true]
  split
  · simp [TimeBase.setTrim, trimOf, *]
  · simp [*]

/-- Settles O11, by the case of the edge: the first one, one that ends a bad interval, and the three that end a good one. -/
theorem refEdge : Obligations.RefEdge := by
  intro s hl hlegal
  have hspec := fun raised h => s.retimed_reports hl s.time.edge (raised := raised) h
  obtain ⟨htime, hlinks, hcircuit, hrace, hqueue, hport, -⟩ := hspec _ rfl
  have hreports := fun raised h => by
    obtain ⟨-, -, -, -, -, -, hr⟩ := hspec raised h
    exact hr
  refine ⟨_, rfl, hlinks, hcircuit, hrace, hqueue, hport, fun habs => ?_, fun habs hbad => ?_, fun hgood =>
    ⟨fun hmon hlow => ?_, fun hmon h3 => ?_, fun hmon => ?_⟩⟩
  · have hedge := TimeBase.edge_absent habs
    exact ⟨htime.trans hedge, hreports _ (by simp [hedge, habs])⟩
  · have hedge := hlegal.edge_bad habs hbad
    refine ⟨htime.trans hedge, hreports _ ?_⟩
    rw [hedge]
    cases hmon : s.time.monitor with
    | absent => exact absurd hmon habs
    | qualifying =>
      have hmode : s.time.mode ≠ .locked := fun hm => nomatch hmon.symm.trans (hlegal.qualified_of_locked hm)
      simp [hmode]
    | qualified => simp
  · have hedge := TimeBase.edge_counts hmon hlow hgood
    exact ⟨htime.trans hedge, hreports _ (by simp [hedge])⟩
  · have hedge := hlegal.edge_gains hmon h3 hgood
    exact ⟨htime.trans hedge, hreports _ (by simp [hedge, hmon])⟩
  · have hedge := TimeBase.edge_renews hmon hgood
    exact ⟨htime.trans hedge, hreports _ (by simp [hedge])⟩

/-- Settles O12: the expiry is due, and the loss changes the monitor. -/
theorem absenceExpiry : Obligations.AbsenceExpiry := by
  intro s hl hlegal habs hcount
  have hdue : s.time.absenceDue = true := by simp [TimeBase.absenceDue, habs, hcount, Config.absenceLimit]
  have hmode : s.time.lose.mode = if s.time.mode = .locked then .holdover else s.time.mode := hlegal.lostMode
  have hlose : s.time.lose = { s.time with
      monitor := .absent, goodCount := 0, mode := if s.time.mode = .locked then .holdover else s.time.mode } := by
    rw [← hmode]
    rfl
  have hraised : [Cause.time] =
      if s.time.lose.monitor = s.time.monitor ∧ s.time.lose.mode = s.time.mode then [] else [.time] :=
    (if_neg fun he => habs he.1.symm).symm
  have hspec := s.retimed_reports hl s.time.lose hraised
  obtain ⟨htime, hrest⟩ := hspec
  have hexec : exec .absenceExpiry s = .next (raiseTime s (s.setTime s.time.lose)).settleAttention :=
    congrArg Host.Outcome.next (if_pos hdue)
  exact ⟨_, hexec, htime.trans hlose, hrest⟩

end Sys2Proof.Machine
end

section
/-! Numbers in bytes, fields of given widths, and codes of enumerations (R169): writing and reading undo each other, and
only what writing gives is read. -/

namespace Sys2Proof.Machine

/-! ## Numbers in bytes -/

@[simp] theorem length_beBytes (w n : Nat) : (beBytes w n).length = w := by
  induction w generalizing n with
  | zero => rfl
  | succ w ih => simp [beBytes, ih]

theorem beNat_concat (bs : List Byte) (b : Byte) : beNat (bs ++ [b]) = beNat bs * 256 + b.toNat := by
  simp [beNat, List.foldl_append]

theorem beNat_beBytes (w n : Nat) : beNat (beBytes w n) = n % 256 ^ w := by
  induction w generalizing n with
  | zero => simp [beBytes, beNat, Nat.mod_one]
  | succ w ih =>
    rw [beBytes, beNat_concat, ih, Nat.pow_succ', Nat.mod_mul, BitVec.toNat_ofNat]
    omega

theorem beNat_lt (bs : List Byte) : beNat bs < 256 ^ bs.length := by
  induction bs using List.reverseRecOn with
  | nil => simp [beNat]
  | append_singleton bs b ih =>
    have hb : b.toNat < 256 := b.isLt
    rw [beNat_concat, List.length_append, List.length_singleton, Nat.pow_succ]
    omega

theorem beBytes_beNat (bs : List Byte) : beBytes bs.length (beNat bs) = bs := by
  induction bs using List.reverseRecOn with
  | nil => rfl
  | append_singleton bs b ih =>
    have hb : b.toNat < 256 := b.isLt
    have hdiv : (beNat bs * 256 + b.toNat) / 256 = beNat bs := by omega
    have hmod : BitVec.ofNat 8 (beNat bs * 256 + b.toNat) = b := by
      refine BitVec.eq_of_toNat_eq ?_
      rw [BitVec.toNat_ofNat]
      omega
    rw [List.length_append, List.length_singleton, beBytes, beNat_concat, hdiv, hmod, ih]

/-! ## Fields -/

/-- Fields are read exactly where they have been written, each number within its width. -/
theorem takeFields_eq_some {ws : List Nat} {bs : List Byte} {ns : List Nat} :
    takeFields ws bs = some ns ↔ List.Forall₂ (fun w n => n < 256 ^ w) ws ns ∧ bs = putFields (ws.zip ns) := by
  induction ws generalizing bs ns with
  | nil =>
    cases bs with
    | nil =>
      cases ns with
      | nil => simp [takeFields, putFields]
      | cons n ns => simp [takeFields]
    | cons b bs =>
      cases ns with
      | nil => simp [takeFields, putFields]
      | cons n ns => simp [takeFields]
  | cons w ws ih =>
    cases ns with
    | nil => simp [takeFields]
    | cons n ns =>
      simp only [takeFields, List.forall₂_cons, List.zip_cons_cons, putFields]
      constructor
      · intro h
        split at h
        · rename_i hlen
          obtain ⟨ns', hns, heq⟩ := Option.map_eq_some_iff.1 h
          obtain ⟨rfl, rfl⟩ := List.cons.inj heq
          obtain ⟨hfit, hbytes⟩ := ih.1 hns
          have htake : (bs.take w).length = w := List.length_take_of_le hlen
          refine ⟨⟨?_, hfit⟩, ?_⟩
          · exact (beNat_lt _).trans_eq (by rw [htake])
          · calc bs = bs.take w ++ bs.drop w := (List.take_append_drop w bs).symm
              _ = beBytes w (beNat (bs.take w)) ++ putFields (ws.zip ns') := by
                rw [← hbytes]
                conv_lhs => rw [← beBytes_beNat (bs.take w), htake]
        · exact nomatch h
      · rintro ⟨⟨hn, hfit⟩, rfl⟩
        have hlen : w ≤ (beBytes w n ++ putFields (ws.zip ns)).length := by simp
        rw [if_pos hlen, List.drop_left' (length_beBytes w n), List.take_left' (length_beBytes w n),
          ih.2 ⟨hfit, rfl⟩, beNat_beBytes, Nat.mod_eq_of_lt hn]
        rfl

/-! ## Codes and ranges -/

/-- A code is read as the value whose code it is. -/
theorem getElem?_eq_some_iff_codeIn {α : Type} [DecidableEq α] {all : List α} (hall : all.Nodup) {x : α} (hx : x ∈ all)
    {n : Nat} : all[n]? = some x ↔ n = codeIn all x := by
  constructor
  · intro h
    obtain ⟨hlt, rfl⟩ := List.getElem?_eq_some_iff.1 h
    exact (hall.idxOf_getElem n hlt).symm
  · rintro rfl
    exact List.getElem?_idxOf hx

theorem source_code {n : Nat} {x : Source} : Source.all[n]? = some x ↔ n = codeIn Source.all x :=
  getElem?_eq_some_iff_codeIn (by decide) (by cases x <;> decide)

theorem role_code {n : Nat} {x : Role} : Role.all[n]? = some x ↔ n = codeIn Role.all x :=
  getElem?_eq_some_iff_codeIn (by decide) (by cases x <;> decide)

theorem liveness_code {n : Nat} {x : Liveness} : Liveness.all[n]? = some x ↔ n = codeIn Liveness.all x :=
  getElem?_eq_some_iff_codeIn (by decide) (by cases x <;> decide)

theorem sessionType_code {n : Nat} {x : SessionType} : SessionType.all[n]? = some x ↔ n = codeIn SessionType.all x :=
  getElem?_eq_some_iff_codeIn (by decide) (by cases x <;> decide)

theorem delta_code {n : Nat} {x : DeltaDirection} : DeltaDirection.all[n]? = some x ↔ n = codeIn DeltaDirection.all x :=
  getElem?_eq_some_iff_codeIn (by decide) (by cases x <;> decide)

theorem kind_code {n : Nat} {x : RequestKind} : RequestKind.all[n]? = some x ↔ n = codeIn RequestKind.all x :=
  getElem?_eq_some_iff_codeIn (by decide) (by cases x <;> decide)

theorem linkOf_eq_some {n : Nat} {l : LinkNo} : linkOf n = some l ↔ n = l.val := by
  unfold linkOf
  constructor
  · intro h
    split at h
    · exact congrArg Fin.val (Option.some.inj h)
    · exact nomatch h
  · rintro rfl
    rw [dif_pos l.isLt]

theorem checked_eq_some {α : Type} {ok : α → Bool} {a b : α} : checked ok a = some b ↔ ok b = true ∧ a = b := by
  unfold checked
  split
  · rw [Option.some.injEq]
    exact ⟨fun h => ⟨h ▸ ‹_›, h⟩, fun h => h.2⟩
  · exact ⟨fun h => (nomatch h), fun ⟨hb, he⟩ => absurd (he ▸ hb) ‹_›⟩

theorem within_iff {lo n hi : Nat} : within lo n hi = true ↔ lo ≤ n ∧ n ≤ hi := by
  simp [within]

end Sys2Proof.Machine
end

section
/-! The arguments of every request and the bytes that spell them (R168, R169). -/

namespace Sys2Proof.Machine

/-! ## Requests whose arguments are fields alone -/

theorem parseNone_iff {bs : List Byte} : parseNone bs = some () ↔ bs = [] := by
  cases bs <;> simp [parseNone]

/-- One field of a byte, read with its own test. -/
def oneByte {α : Type} (f : Nat → Option α) (bs : List Byte) : Option α :=
  match takeFields [1] bs with
  | some [n] => f n
  | _ => none

theorem oneByte_iff {α : Type} {bs : List Byte} {f : Nat → Option α} {x : α} :
    oneByte f bs = some x ↔ ∃ n < 256, f n = some x ∧ bs = [inByte n] := by
  unfold oneByte
  constructor
  · intro h
    split at h
    · rename_i n hn
      obtain ⟨hfit, rfl⟩ := takeFields_eq_some.1 hn
      simp only [List.forall₂_cons, pow_one] at hfit
      exact ⟨n, hfit.1, h, rfl⟩
    · exact nomatch h
  · rintro ⟨n, hn, hf, rfl⟩
    have htake : takeFields [1] [inByte n] = some [n] :=
      takeFields_eq_some.2 ⟨by simpa using hn, rfl⟩
    rw [htake]
    exact hf

theorem parseSource_eq (bs : List Byte) : parseSource bs = oneByte (Source.all[·]?) bs := rfl
theorem parseLink_eq (bs : List Byte) : parseLink bs = oneByte linkOf bs := rfl
theorem parseSlot_eq (bs : List Byte) : parseSlot bs = oneByte (checked slotOk) bs := rfl
theorem parseCapacity_eq (bs : List Byte) : parseCapacity bs = oneByte (checked slotOk) bs := rfl
theorem parseModeration_eq (bs : List Byte) :
    parseModeration bs = oneByte (checked fun n => within 0 n 100) bs := rfl

theorem parseSource_iff {bs : List Byte} {x : Source} : parseSource bs = some x ↔ SpellsSource bs x := by
  rw [parseSource_eq, oneByte_iff]
  simp only [source_code]
  constructor
  · rintro ⟨_, -, rfl, rfl⟩
    cases x <;> rfl
  · rintro rfl
    exact ⟨_, by cases x <;> decide, rfl, by cases x <;> rfl⟩

theorem parseLink_iff {bs : List Byte} {l : LinkNo} : parseLink bs = some l ↔ SpellsLink bs l := by
  rw [parseLink_eq, oneByte_iff]
  simp only [linkOf_eq_some]
  constructor
  · rintro ⟨_, -, rfl, rfl⟩
    rfl
  · rintro rfl
    exact ⟨l.val, by omega, rfl, rfl⟩

theorem parseSlot_iff {bs : List Byte} {n : Nat} : parseSlot bs = some n ↔ SpellsSlot bs n := by
  rw [parseSlot_eq, oneByte_iff]
  simp only [checked_eq_some, slotOk, within_iff]
  constructor
  · rintro ⟨_, -, ⟨⟨h1, h2⟩, rfl⟩, rfl⟩
    exact ⟨h1, h2, rfl⟩
  · rintro ⟨h1, h2, rfl⟩
    exact ⟨n, by omega, ⟨⟨h1, h2⟩, rfl⟩, rfl⟩

theorem parseCapacity_iff {bs : List Byte} {n : Nat} : parseCapacity bs = some n ↔ SpellsSlot bs n := by
  rw [parseCapacity_eq, ← parseSlot_eq, parseSlot_iff]

theorem parseModeration_iff {bs : List Byte} {n : Nat} : parseModeration bs = some n ↔ SpellsModeration bs n := by
  rw [parseModeration_eq, oneByte_iff]
  simp only [checked_eq_some, within_iff]
  constructor
  · rintro ⟨_, -, ⟨⟨-, h⟩, rfl⟩, rfl⟩
    exact ⟨h, rfl⟩
  · rintro ⟨h, rfl⟩
    exact ⟨n, by omega, ⟨⟨Nat.zero_le _, h⟩, rfl⟩, rfl⟩

/-! ## Requests with several fields -/

theorem LinkSettings.inRange_iff {c : LinkSettings} : c.inRange = true ↔ settingsWithin c := by
  simp only [LinkSettings.inRange, Bool.and_eq_true, within_iff, decide_eq_true_eq, settingsWithin]
  omega

theorem SetLoopArgs.inRange_iff {a : SetLoopArgs} :
    a.inRange = true ↔ (a.role = .line → a.linePos ≤ 7) ∧ settingsWithin a.settings := by
  simp only [SetLoopArgs.inRange, Bool.and_eq_true, Bool.or_eq_true, within_iff, decide_eq_true_eq,
    LinkSettings.inRange_iff, ← imp_iff_not_or, Nat.zero_le, true_and, ne_eq]

theorem SetLoopArgs.parse_eq_some {bs : List Byte} {a : SetLoopArgs} :
    SetLoopArgs.parse bs = some a ↔ (a.inRange = true ∧ a.linePos ≤ 255) ∧ bs = a.bytes := by
  constructor
  · intro h
    unfold SetLoopArgs.parse at h
    split at h
    · rename_i hfields
      split at h
      · rename_i hlink hrole hlive
        obtain ⟨hin, rfl⟩ := checked_eq_some.1 h
        obtain ⟨hfit, rfl⟩ := takeFields_eq_some.1 hfields
        rw [linkOf_eq_some] at hlink
        rw [role_code] at hrole
        rw [liveness_code] at hlive
        subst hlink hrole hlive
        simp only [List.forall₂_cons, pow_one] at hfit
        obtain ⟨-, -, hpos, -⟩ := hfit
        exact ⟨⟨hin, Nat.le_of_lt_succ hpos⟩, rfl⟩
      · exact nomatch h
    · exact nomatch h
  · rintro ⟨⟨hin, hpos⟩, rfl⟩
    obtain ⟨-, hsettings⟩ := SetLoopArgs.inRange_iff.1 hin
    have hrole : codeIn Role.all a.role < 256 := by cases a.role <;> decide
    have hlive : codeIn Liveness.all a.settings.liveness < 256 := by cases a.settings.liveness <;> decide
    have hfields : takeFields [1, 1, 1, 2, 1, 1, 1, 2, 1, 1, 2, 1] a.bytes = some [a.link.val, codeIn Role.all a.role,
        a.linePos, a.settings.latency, a.settings.threshold, a.settings.saturation, a.settings.closeGap,
        a.settings.maxDwell, a.settings.minHits, a.settings.maxAge, a.settings.silence,
        codeIn Liveness.all a.settings.liveness] := by
      refine takeFields_eq_some.2 ⟨?_, rfl⟩
      simp only [List.forall₂_cons, List.Forall₂.nil, and_true]
      omega
    unfold SetLoopArgs.parse
    simp only [hfields, linkOf_eq_some.2 rfl, role_code.2 rfl, liveness_code.2 rfl]
    exact checked_eq_some.2 ⟨hin, rfl⟩

theorem SetSectorArgs.parse_eq_some {bs : List Byte} {a : SetSectorArgs} :
    SetSectorArgs.parse bs = some a ↔ a.inRange = true ∧ bs = a.bytes := by
  constructor
  · intro h
    unfold SetSectorArgs.parse at h
    split at h
    · rename_i hfields
      split at h
      · rename_i hlink
        obtain ⟨hin, rfl⟩ := checked_eq_some.1 h
        obtain ⟨-, rfl⟩ := takeFields_eq_some.1 hfields
        rw [linkOf_eq_some] at hlink
        subst hlink
        exact ⟨hin, rfl⟩
      · exact nomatch h
    · exact nomatch h
  · rintro ⟨hin, rfl⟩
    have hminimum := (within_iff.1 hin).2
    have hfields : takeFields [1, 4] a.bytes = some [a.sector.val, a.minimum] := by
      refine takeFields_eq_some.2 ⟨?_, rfl⟩
      simp only [List.forall₂_cons, List.Forall₂.nil, and_true]
      omega
    unfold SetSectorArgs.parse
    simp only [hfields, linkOf_eq_some.2 rfl]
    exact checked_eq_some.2 ⟨hin, rfl⟩

theorem PitSettings.inRange_iff {a : PitSettings} :
    a.inRange = true ↔ a.inAfter ≤ 7 ∧ a.outBefore ≤ 7 ∧ a.inAfter ≠ a.outBefore ∧ 1 ≤ a.length ∧ a.length ≤ 2000000 ∧
      1000 ≤ a.limit ∧ a.limit ≤ 40000 := by
  simp only [PitSettings.inRange, Bool.and_eq_true, within_iff, decide_eq_true_eq]
  omega

theorem PitSettings.parse_eq_some {bs : List Byte} {a : PitSettings} :
    PitSettings.parse bs = some a ↔ a.inRange = true ∧ bs = a.bytes := by
  constructor
  · intro h
    unfold PitSettings.parse at h
    split at h
    · rename_i hfields
      obtain ⟨hin, rfl⟩ := checked_eq_some.1 h
      obtain ⟨-, rfl⟩ := takeFields_eq_some.1 hfields
      exact ⟨hin, rfl⟩
    · exact nomatch h
  · rintro ⟨hin, rfl⟩
    have hbounds := PitSettings.inRange_iff.1 hin
    have hfields : takeFields [1, 1, 4, 2] a.bytes = some [a.inAfter, a.outBefore, a.length, a.limit] := by
      refine takeFields_eq_some.2 ⟨?_, rfl⟩
      simp only [List.forall₂_cons, List.Forall₂.nil, and_true]
      omega
    unfold PitSettings.parse
    simp only [hfields]
    exact checked_eq_some.2 ⟨hin, rfl⟩

theorem AdjustArgs.inRange_iff {a : AdjustArgs} :
    a.inRange = true ↔ 1 ≤ a.slot ∧ a.slot ≤ 128 ∧ -255 ≤ a.laps ∧ a.laps ≤ 255 ∧ a.penalty ≤ 4294967295 := by
  simp only [AdjustArgs.inRange, Bool.and_eq_true, slotOk, within_iff, decide_eq_true_eq]
  omega

theorem unsignedOf_signedOf {d : Nat} (h : d < 256 ^ 2) : unsignedOf 2 (signedOf 2 d) = d := by
  unfold unsignedOf signedOf
  split <;> omega

theorem signedOf_unsignedOf {z : Int} (h : -255 ≤ z ∧ z ≤ 255) : signedOf 2 (unsignedOf 2 z) = z := by
  unfold unsignedOf signedOf
  split <;> omega

theorem AdjustArgs.parse_eq_some {bs : List Byte} {a : AdjustArgs} :
    AdjustArgs.parse bs = some a ↔ a.inRange = true ∧ bs = a.bytes := by
  constructor
  · intro h
    unfold AdjustArgs.parse at h
    split at h
    · rename_i n d t hfields
      obtain ⟨hin, rfl⟩ := checked_eq_some.1 h
      obtain ⟨hfit, rfl⟩ := takeFields_eq_some.1 hfields
      simp only [List.forall₂_cons] at hfit
      obtain ⟨-, hd, -⟩ := hfit
      refine ⟨hin, ?_⟩
      simp only [AdjustArgs.bytes, unsignedOf_signedOf hd]
      rfl
    · exact nomatch h
  · rintro ⟨hin, rfl⟩
    obtain ⟨hslot, hslot', hlow, hhigh, hpenalty⟩ := AdjustArgs.inRange_iff.1 hin
    have hfields : takeFields [1, 2, 4] a.bytes = some [a.slot, unsignedOf 2 a.laps, a.penalty] := by
      refine takeFields_eq_some.2 ⟨?_, rfl⟩
      simp only [List.forall₂_cons, List.Forall₂.nil, and_true, unsignedOf]
      omega
    unfold AdjustArgs.parse
    simp only [hfields, signedOf_unsignedOf ⟨hlow, hhigh⟩]
    exact checked_eq_some.2 ⟨hin, rfl⟩

theorem ReadOrderArgs.parse_eq_some {bs : List Byte} {a : ReadOrderArgs} :
    ReadOrderArgs.parse bs = some a ↔ a.inRange = true ∧ bs = a.bytes := by
  constructor
  · intro h
    unfold ReadOrderArgs.parse at h
    split at h
    · rename_i hfields
      obtain ⟨hin, rfl⟩ := checked_eq_some.1 h
      obtain ⟨-, rfl⟩ := takeFields_eq_some.1 hfields
      exact ⟨hin, rfl⟩
    · exact nomatch h
  · rintro ⟨hin, rfl⟩
    have hbounds := hin
    simp only [ReadOrderArgs.inRange, Bool.and_eq_true, within_iff] at hbounds
    have hfields : takeFields [1, 1] a.bytes = some [a.first, a.count] := by
      refine takeFields_eq_some.2 ⟨?_, rfl⟩
      simp only [List.forall₂_cons, List.Forall₂.nil, and_true]
      omega
    unfold ReadOrderArgs.parse
    simp only [hfields]
    exact checked_eq_some.2 ⟨hin, rfl⟩

theorem SessionSetup.inRange_iff {a : SessionSetup} :
    a.inRange = true ↔ a.lapLimit ≤ 9999 ∧ a.timeLimit ≤ 1440 ∧ 1 ≤ a.closeTimeout ∧ a.closeTimeout ≤ 60 ∧
      1 ≤ a.echoGuard ∧ a.echoGuard ≤ 60 ∧ (a.type ≠ .race → a.lapLimit = 0 ∧ a.timeLimit ≠ 0) := by
  simp only [SessionSetup.inRange, SessionSetup.consistent, Bool.and_eq_true, Bool.or_eq_true, within_iff,
    decide_eq_true_eq, or_iff_not_imp_left, ne_eq, Nat.zero_le, true_and, and_assoc]

theorem SessionSetup.parse_eq_some {bs : List Byte} {a : SessionSetup} :
    SessionSetup.parse bs = some a ↔ a.inRange = true ∧ bs = a.bytes := by
  constructor
  · intro h
    unfold SessionSetup.parse at h
    split at h
    · rename_i hfields
      split at h
      · rename_i htype hdelta
        obtain ⟨hin, rfl⟩ := checked_eq_some.1 h
        obtain ⟨-, rfl⟩ := takeFields_eq_some.1 hfields
        rw [sessionType_code] at htype
        rw [delta_code] at hdelta
        subst htype hdelta
        exact ⟨hin, rfl⟩
      · exact nomatch h
    · exact nomatch h
  · rintro ⟨hin, rfl⟩
    obtain ⟨hlap, htime, -, hclose, -, hecho, -⟩ := SessionSetup.inRange_iff.1 hin
    have htype : codeIn SessionType.all a.type < 256 := by cases a.type <;> decide
    have hdelta : codeIn DeltaDirection.all a.delta < 256 := by cases a.delta <;> decide
    have hfields : takeFields [1, 2, 2, 1, 1, 1] a.bytes = some [codeIn SessionType.all a.type, a.lapLimit, a.timeLimit,
        a.closeTimeout, a.echoGuard, codeIn DeltaDirection.all a.delta] := by
      refine takeFields_eq_some.2 ⟨?_, rfl⟩
      simp only [List.forall₂_cons, List.Forall₂.nil, and_true]
      omega
    unfold SessionSetup.parse
    simp only [hfields, sessionType_code.2 rfl, delta_code.2 rfl]
    exact checked_eq_some.2 ⟨hin, rfl⟩

theorem CarrySet.ofCode_eq_some {n : Nat} {c : CarrySet} : CarrySet.ofCode n = some c ↔ n = c.code := by
  constructor
  · intro h
    unfold CarrySet.ofCode at h
    split at h
    · rename_i hn
      obtain rfl := Option.some.inj h
      interval_cases n <;> rfl
    · exact nomatch h
  · rintro rfl
    exact CarrySet.ofCode_code c

theorem RolloverArgs.parse_eq_some {bs : List Byte} {a : RolloverArgs} :
    RolloverArgs.parse bs = some a ↔ bs = a.bytes := by
  constructor
  · intro h
    unfold RolloverArgs.parse at h
    split at h
    · rename_i hfields
      split at h
      · rename_i htype hcarry
        obtain rfl := Option.some.inj h
        obtain ⟨-, rfl⟩ := takeFields_eq_some.1 hfields
        rw [sessionType_code] at htype
        rw [CarrySet.ofCode_eq_some] at hcarry
        subst htype hcarry
        rfl
      · exact nomatch h
    · exact nomatch h
  · rintro rfl
    exact RolloverArgs.parse_bytes a

/-! ## Requests that begin with a selector or a mask -/

theorem flagMask_eq_some {n : Nat} {m : Mask 10} : flagMask n = some m ↔ n = m.toNat := by
  unfold flagMask
  constructor
  · intro h
    split at h
    · rename_i hn
      obtain rfl := Option.some.inj h
      rw [BitVec.toNat_ofNat, Nat.mod_eq_of_lt hn]
    · exact nomatch h
  · rintro rfl
    rw [if_pos m.isLt, BitVec.ofNat_toNat, BitVec.setWidth_eq]

theorem ClearFlagsArgs.parse_eq_some {bs : List Byte} {a : ClearFlagsArgs} :
    ClearFlagsArgs.parse bs = some a ↔ bs = a.bytes := by
  constructor
  · intro h
    unfold ClearFlagsArgs.parse at h
    split at h
    · exact nomatch h
    · split at h
      · subst_vars
        split at h
        · rename_i hfields
          split at h
          · rename_i hlink hmask
            obtain rfl := Option.some.inj h
            obtain ⟨-, rfl⟩ := takeFields_eq_some.1 hfields
            rw [linkOf_eq_some] at hlink
            rw [flagMask_eq_some] at hmask
            subst hlink hmask
            rfl
          · exact nomatch h
        · exact nomatch h
      · split at h
        · subst_vars
          split at h
          · rename_i hfields
            obtain ⟨m, hmask, rfl⟩ := Option.map_eq_some_iff.1 h
            obtain ⟨-, rfl⟩ := takeFields_eq_some.1 hfields
            rw [flagMask_eq_some] at hmask
            subst hmask
            rfl
          · exact nomatch h
        · exact nomatch h
  · rintro rfl
    obtain ⟨link, mask⟩ := a
    have hmask := mask.isLt
    cases link with
    | some l =>
      have hfields : takeFields [1, 2] (putFields [(1, l.val), (2, mask.toNat)]) = some [l.val, mask.toNat] := by
        refine takeFields_eq_some.2 ⟨?_, rfl⟩
        simp only [List.forall₂_cons, List.Forall₂.nil, and_true]
        omega
      simp [ClearFlagsArgs.parse, ClearFlagsArgs.bytes, hfields, linkOf_eq_some.2 rfl, flagMask_eq_some.2 rfl]
    | none =>
      have hfields : takeFields [2] (putFields [(2, mask.toNat)]) = some [mask.toNat] := by
        refine takeFields_eq_some.2 ⟨?_, rfl⟩
        simp only [List.forall₂_cons, List.Forall₂.nil, and_true]
        omega
      simp [ClearFlagsArgs.parse, ClearFlagsArgs.bytes, hfields, flagMask_eq_some.2 rfl]

theorem EnrolArgs.inRange_iff {a : EnrolArgs} :
    a.inRange = true ↔ codeWithin a.code ∧ carWithin a.car ∧ classWithin a.cls ∧ ∀ g ∈ a.grid, gridWithin g := by
  simp only [EnrolArgs.inRange, Bool.and_eq_true, codeOk, carOk, classOk, within_iff, Option.all_eq_true, gridOk,
    Config.maxCode, Nat.zero_le, true_and, and_assoc, Option.mem_def]

theorem EnrolArgs.parse_eq_some {bs : List Byte} {a : EnrolArgs} :
    EnrolArgs.parse bs = some a ↔ a.inRange = true ∧ bs = a.bytes := by
  constructor
  · intro h
    unfold EnrolArgs.parse at h
    split at h
    · exact nomatch h
    · split at h
      · subst_vars
        split at h
        · rename_i hfields
          obtain ⟨hin, rfl⟩ := checked_eq_some.1 h
          obtain ⟨-, rfl⟩ := takeFields_eq_some.1 hfields
          exact ⟨hin, rfl⟩
        · exact nomatch h
      · split at h
        · subst_vars
          split at h
          · rename_i hfields
            obtain ⟨hin, rfl⟩ := checked_eq_some.1 h
            obtain ⟨-, rfl⟩ := takeFields_eq_some.1 hfields
            exact ⟨hin, rfl⟩
          · exact nomatch h
        · exact nomatch h
  · rintro ⟨hin, rfl⟩
    have hbounds := EnrolArgs.inRange_iff.1 hin
    obtain ⟨code, car, cls, grid⟩ := a
    cases grid with
    | none =>
      have hfields : takeFields [3, 2, 1] (putFields [(3, code), (2, car), (1, cls)]) = some [code, car, cls] := by
        refine takeFields_eq_some.2 ⟨?_, rfl⟩
        simp only [List.forall₂_cons, List.Forall₂.nil, and_true]
        simp only [codeWithin, carWithin, classWithin] at hbounds
        omega
      simpa [EnrolArgs.parse, EnrolArgs.bytes, hfields] using checked_eq_some.2 ⟨hin, rfl⟩
    | some g =>
      have hfields : takeFields [3, 2, 1, 1] (putFields [(3, code), (2, car), (1, cls), (1, g)]) =
          some [code, car, cls, g] := by
        refine takeFields_eq_some.2 ⟨?_, rfl⟩
        simp only [List.forall₂_cons, List.Forall₂.nil, and_true]
        simp only [codeWithin, carWithin, classWithin, gridWithin, Option.mem_def, Option.some.injEq, forall_eq'] at hbounds
        omega
      simpa [EnrolArgs.parse, EnrolArgs.bytes, hfields] using checked_eq_some.2 ⟨hin, rfl⟩

theorem choiceOf_eq_some {n : Nat} {b : Bool} : choiceOf n = some b ↔ n = if b then 1 else 0 := by
  match n with
  | 0 => cases b <;> simp [choiceOf]
  | 1 => cases b <;> simp [choiceOf]
  | n + 2 => cases b <;> simp [choiceOf]

end Sys2Proof.Machine
end

section
/-! The arguments of AMEND, READ RECORD and DISMISS UNKNOWN, and the statement that the bytes read are those that spell
arguments (R168, R169). -/

namespace Sys2Proof.Machine

/-! ## AMEND (R62, R169) -/

theorem putFields_append (xs ys : List (Nat × Nat)) : putFields (xs ++ ys) = putFields xs ++ putFields ys := by
  induction xs with
  | nil => rfl
  | cons p xs ih => simp [putFields, ih]

/-- An optional field written where it is given. -/
def optField (w : Nat) (o : Option Nat) : List Byte := o.toList.flatMap (beBytes w)

theorem putFields_toList (w : Nat) (o : Option Nat) : putFields (o.toList.map fun v => (w, v)) = optField w o := by
  cases o <;> simp [putFields, optField]

/-- A field that is announced is read, and one that is not takes no byte. -/
theorem takeFields_optField {b : Bool} {w : Nat} {ws : List Nat} {bs : List Byte} {vs : List Nat} :
    takeFields ((if b then [w] else []) ++ ws) bs = some vs ↔
      ∃ o bs' vs', o.isSome = b ∧ (∀ n ∈ o, n < 256 ^ w) ∧ bs = optField w o ++ bs' ∧ vs = o.toList ++ vs' ∧
        takeFields ws bs' = some vs' := by
  cases b with
  | false =>
    constructor
    · intro h
      exact ⟨none, bs, vs, rfl, fun _ hn => (nomatch hn), rfl, rfl, h⟩
    · rintro ⟨o, bs', vs', ho, -, rfl, rfl, h⟩
      cases o with
      | none => exact h
      | some n => exact nomatch ho
  | true =>
    constructor
    · intro h
      obtain ⟨hfit, rfl⟩ := takeFields_eq_some.1 h
      cases vs with
      | nil => simp at hfit
      | cons n vs =>
        obtain ⟨hn, hrest⟩ := List.forall₂_cons.1 hfit
        refine ⟨some n, putFields (ws.zip vs), vs, rfl, fun m hm => Option.some.inj hm ▸ hn, ?_, rfl,
          takeFields_eq_some.2 ⟨hrest, rfl⟩⟩
        simp [putFields, optField]
    · rintro ⟨o, bs', vs', ho, hfit, rfl, rfl, h⟩
      cases o with
      | none => exact nomatch ho
      | some n =>
        obtain ⟨hrest, rfl⟩ := takeFields_eq_some.1 h
        refine takeFields_eq_some.2 ⟨List.forall₂_cons.2 ⟨hfit n rfl, hrest⟩, ?_⟩
        simp [putFields, optField]

theorem popIf_toList (o : Option Nat) (vs : List Nat) : popIf o.isSome (o.toList ++ vs) = (o, vs) := by
  cases o <;> rfl

/-- The fields an AMEND mask announces. -/
theorem takeFields_amendWidths {m : Byte} {bs : List Byte} {vs : List Nat} :
    takeFields (amendWidths m) bs = some vs ↔
      ∃ c n k g : Option Nat, (c.isSome = m.getLsbD 0 ∧ n.isSome = m.getLsbD 1 ∧ k.isSome = m.getLsbD 2 ∧
          g.isSome = m.getLsbD 3) ∧
        ((∀ x ∈ c, x < 256 ^ 3) ∧ (∀ x ∈ n, x < 256 ^ 2) ∧ (∀ x ∈ k, x < 256 ^ 1) ∧ ∀ x ∈ g, x < 256 ^ 1) ∧
        bs = optField 3 c ++ optField 2 n ++ optField 1 k ++ optField 1 g ∧
        vs = c.toList ++ (n.toList ++ (k.toList ++ g.toList)) := by
  have hwidths : amendWidths m = (if m.getLsbD 0 then [3] else []) ++ ((if m.getLsbD 1 then [2] else []) ++
      ((if m.getLsbD 2 then [1] else []) ++ ((if m.getLsbD 3 then [1] else []) ++ []))) := by
    simp [amendWidths]
  rw [hwidths]
  constructor
  · intro h
    obtain ⟨c, bs₁, vs₁, hc, hcfit, rfl, rfl, h₁⟩ := takeFields_optField.1 h
    obtain ⟨n, bs₂, vs₂, hn, hnfit, rfl, rfl, h₂⟩ := takeFields_optField.1 h₁
    obtain ⟨k, bs₃, vs₃, hk, hkfit, rfl, rfl, h₃⟩ := takeFields_optField.1 h₂
    obtain ⟨g, bs₄, vs₄, hg, hgfit, rfl, rfl, h₄⟩ := takeFields_optField.1 h₃
    obtain ⟨hnil, rfl⟩ := takeFields_eq_some.1 h₄
    rw [List.forall₂_nil_left_iff] at hnil
    subst hnil
    exact ⟨c, n, k, g, ⟨hc, hn, hk, hg⟩, ⟨hcfit, hnfit, hkfit, hgfit⟩, by simp [putFields], by simp⟩
  · rintro ⟨c, n, k, g, ⟨hc, hn, hk, hg⟩, ⟨hcfit, hnfit, hkfit, hgfit⟩, rfl, rfl⟩
    have hgrid := takeFields_optField.2 ⟨g, [], [], hg, hgfit, rfl, rfl, show takeFields [] [] = some [] from rfl⟩
    have hcls := takeFields_optField.2 ⟨k, _, _, hk, hkfit, rfl, rfl, hgrid⟩
    have hcar := takeFields_optField.2 ⟨n, _, _, hn, hnfit, rfl, rfl, hcls⟩
    have hcode := takeFields_optField.2 ⟨c, _, _, hc, hcfit, rfl, rfl, hcar⟩
    simpa [List.append_assoc] using hcode

/-- A mask that AMEND admits is told by its five low bits. -/
theorem amendMask_toNat : ∀ m : Byte, amendMaskOk m = true →
    m.toNat = (if m.getLsbD 0 then 1 else 0) + (if m.getLsbD 1 then 2 else 0) + (if m.getLsbD 2 then 4 else 0) +
      (if m.getLsbD 3 then 8 else 0) + (if m.getLsbD 4 then 16 else 0) ∧ ¬(m.getLsbD 3 = true ∧ m.getLsbD 4 = true) := by
  decide

/-- The mask of an AMEND and what each of its bits says. -/
theorem AmendArgs.mask_bits (a : AmendArgs) :
    a.mask < 256 ∧ amendMaskOk (inByte a.mask) = true ∧ (inByte a.mask).getLsbD 0 = a.code.isSome ∧
    (inByte a.mask).getLsbD 1 = a.car.isSome ∧ (inByte a.mask).getLsbD 2 = a.cls.isSome ∧
    (inByte a.mask).getLsbD 3 = (givenGrid a.grid).isSome ∧ (inByte a.mask).getLsbD 4 = decide (a.grid = .remove) := by
  obtain ⟨slot, code, car, cls, grid⟩ := a
  cases code <;> cases car <;> cases cls <;> cases grid <;>
    simp [AmendArgs.mask, inByte, givenGrid, amendMaskOk]

theorem AmendArgs.bytes_eq (a : AmendArgs) :
    a.bytes = inByte a.mask :: inByte a.slot :: (optField 3 a.code ++ optField 2 a.car ++ optField 1 a.cls ++
      optField 1 (givenGrid a.grid)) := by
  obtain ⟨slot, code, car, cls, grid⟩ := a
  simp only [AmendArgs.bytes, putFields_append, putFields_toList]
  cases grid <;> simp [putFields, optField, givenGrid, inByte]

theorem GridChange.inRange_iff (g : GridChange) : g.inRange = true ↔ ∀ n ∈ givenGrid g, gridWithin n := by
  cases g <;> simp [GridChange.inRange, givenGrid, gridOk, within_iff]

theorem AmendArgs.inRange_iff {a : AmendArgs} :
    a.inRange = true ↔ (1 ≤ a.slot ∧ a.slot ≤ 128) ∧ (∀ c ∈ a.code, codeWithin c) ∧ (∀ c ∈ a.car, carWithin c) ∧
      (∀ c ∈ a.cls, classWithin c) ∧ ∀ g ∈ givenGrid a.grid, gridWithin g := by
  simp only [AmendArgs.inRange, Bool.and_eq_true, slotOk, codeOk, carOk, classOk, within_iff, Option.all_eq_true,
    GridChange.inRange_iff, Config.maxCode, Nat.zero_le, true_and, and_assoc, Option.mem_def]

/-- The grid change a mask and an announced grid position stand for. -/
def gridChange (removes : Bool) (g : Option Nat) : GridChange :=
  if removes then .remove else match g with | some p => .give p | none => .keep

theorem gridChange_given {removes : Bool} {g : Option Nat} (h : ¬(g.isSome = true ∧ removes = true)) :
    givenGrid (gridChange removes g) = g ∧ decide (gridChange removes g = .remove) = removes := by
  cases removes <;> cases g <;> simp_all [gridChange, givenGrid]

theorem gridChange_self (g : GridChange) : gridChange (decide (g = .remove)) (givenGrid g) = g := by
  cases g <;> simp [gridChange, givenGrid]

/-- A mask is the one of the arguments its bits announce. -/
theorem AmendArgs.mask_of_bits {a : AmendArgs} {m : Byte} (hm : amendMaskOk m = true) (h0 : a.code.isSome = m.getLsbD 0)
    (h1 : a.car.isSome = m.getLsbD 1) (h2 : a.cls.isSome = m.getLsbD 2) (h3 : (givenGrid a.grid).isSome = m.getLsbD 3)
    (h4 : decide (a.grid = .remove) = m.getLsbD 4) : inByte a.mask = m := by
  obtain ⟨hlt, hok, b0, b1, b2, b3, b4⟩ := AmendArgs.mask_bits a
  refine BitVec.eq_of_toNat_eq ?_
  rw [(amendMask_toNat _ hok).1, (amendMask_toNat _ hm).1, b0, b1, b2, b3, b4, h0, h1, h2, h3, h4]

theorem AmendArgs.parse_cons (m sl : Byte) (rest : List Byte) :
    AmendArgs.parse (m :: sl :: rest) =
      if amendMaskOk m then
        match takeFields (amendWidths m) rest with
        | some vs =>
          let c := popIf (m.getLsbD 0) vs
          let n := popIf (m.getLsbD 1) c.2
          let k := popIf (m.getLsbD 2) n.2
          let g := popIf (m.getLsbD 3) k.2
          checked AmendArgs.inRange
            { slot := sl.toNat, code := c.1, car := n.1, cls := k.1, grid := gridChange (m.getLsbD 4) g.1 }
        | none => none
      else none := rfl

theorem inByte_toNat (b : Byte) : inByte b.toNat = b := by
  rw [inByte, BitVec.ofNat_toNat, BitVec.setWidth_eq]

theorem toNat_inByte {n : Nat} (h : n < 256) : (inByte n).toNat = n := by
  rw [inByte, BitVec.toNat_ofNat, Nat.mod_eq_of_lt h]

theorem AmendArgs.parse_eq_some {bs : List Byte} {a : AmendArgs} :
    AmendArgs.parse bs = some a ↔ a.inRange = true ∧ bs = a.bytes := by
  constructor
  · intro h
    match bs with
    | [] => exact nomatch h
    | [_] => exact nomatch h
    | m :: sl :: rest =>
      rw [AmendArgs.parse_cons] at h
      split at h
      · rename_i hm
        split at h
        · rename_i vs hvs
          obtain ⟨c, n, k, g, ⟨hc, hn, hk, hg⟩, -, rfl, rfl⟩ := takeFields_amendWidths.1 hvs
          have hgrid := gridChange_given (g := g) (removes := m.getLsbD 4) (hg ▸ (amendMask_toNat m hm).2)
          simp only [← hc, ← hn, ← hk, ← hg, popIf_toList] at h
          rw [show popIf g.isSome g.toList = (g, []) by simpa using popIf_toList g []] at h
          obtain ⟨hin, rfl⟩ := checked_eq_some.1 h
          have hmask := AmendArgs.mask_of_bits hm (a := ⟨sl.toNat, c, n, k, gridChange (m.getLsbD 4) g⟩) hc hn hk
            (by rw [hgrid.1, hg]) hgrid.2
          refine ⟨hin, ?_⟩
          rw [AmendArgs.bytes_eq, hmask, inByte_toNat, hgrid.1]
        · exact nomatch h
      · exact nomatch h
  · rintro ⟨hin, rfl⟩
    obtain ⟨hslot, hcode, hcar, hcls, hgrid⟩ := AmendArgs.inRange_iff.1 hin
    obtain ⟨hlt, hok, b0, b1, b2, b3, b4⟩ := AmendArgs.mask_bits a
    have hfields := (takeFields_amendWidths (m := inByte a.mask)).2 ⟨a.code, a.car, a.cls, givenGrid a.grid,
      ⟨b0.symm, b1.symm, b2.symm, b3.symm⟩,
      ⟨fun x hx => (hcode x hx).2.trans_lt (by decide), fun x hx => (hcar x hx).2.trans_lt (by decide),
        fun x hx => Nat.lt_of_le_of_lt (hcls x hx) (by decide), fun x hx => (hgrid x hx).2.trans_lt (by decide)⟩, rfl, rfl⟩
    rw [AmendArgs.bytes_eq, AmendArgs.parse_cons, if_pos hok, hfields]
    simp only [b0, b1, b2, b3, b4, popIf_toList, toNat_inByte (show a.slot < 256 by omega)]
    rw [show popIf (givenGrid a.grid).isSome (givenGrid a.grid).toList = (givenGrid a.grid, []) by
      simpa using popIf_toList (givenGrid a.grid) [], gridChange_self]
    exact checked_eq_some.2 ⟨hin, rfl⟩

/-! ## READ RECORD and DISMISS UNKNOWN (R67, R76) -/

/-- A name of a given width and a clearing choice. -/
theorem nameAndChoice_iff {w : Nat} {bs : List Byte} {n c : Nat} {b : Bool} :
    (takeFields [w, 1] bs = some [n, c] ∧ choiceOf c = some b) ↔
      n < 256 ^ w ∧ c = (if b then 1 else 0) ∧ bs = beBytes w n ++ [clearByte b] := by
  rw [takeFields_eq_some, choiceOf_eq_some]
  simp only [List.forall₂_cons, List.Forall₂.nil, and_true, List.zip_cons_cons, List.zip_nil_right, putFields]
  constructor
  · rintro ⟨⟨⟨hn, -⟩, rfl⟩, rfl⟩
    refine ⟨hn, rfl, ?_⟩
    cases b <;> rfl
  · rintro ⟨hn, rfl, rfl⟩
    refine ⟨⟨⟨hn, ?_⟩, ?_⟩, rfl⟩
    · cases b <;> decide
    · cases b <;> rfl

/-- What follows the selector of a READ RECORD. -/
def readNamed (name : Nat → RecordName) (v : Option (List Nat)) : Option ReadRecordArgs :=
  match v with
  | some [n, c] =>
    match choiceOf c with
    | some b => checked (fun a => a.who.inRange) { who := name n, clear := b }
    | none => none
  | _ => none

theorem readNamed_iff {name : Nat → RecordName} {w : Nat} {bs : List Byte} {a : ReadRecordArgs} :
    readNamed name (takeFields [w, 1] bs) = some a ↔
      a.who.inRange = true ∧ ∃ n < 256 ^ w, a.who = name n ∧ bs = beBytes w n ++ [clearByte a.clear] := by
  constructor
  · intro h
    unfold readNamed at h
    split at h
    · rename_i hfields
      split at h
      · rename_i hchoice
        obtain ⟨hin, rfl⟩ := checked_eq_some.1 h
        obtain ⟨hn, -, rfl⟩ := nameAndChoice_iff.1 ⟨hfields, hchoice⟩
        exact ⟨hin, _, hn, rfl, rfl⟩
      · exact nomatch h
    · exact nomatch h
  · obtain ⟨who, clear⟩ := a
    rintro ⟨hin, n, hn, rfl, rfl⟩
    obtain ⟨hfields, hchoice⟩ := nameAndChoice_iff (b := clear).2 ⟨hn, rfl, rfl⟩
    simp only [readNamed, hfields, hchoice]
    exact checked_eq_some.2 ⟨hin, rfl⟩

theorem ReadRecordArgs.parse_cons (sel : Byte) (rest : List Byte) :
    ReadRecordArgs.parse (sel :: rest) =
      if sel = 0x00#8 then readNamed .slot (takeFields [1, 1] rest)
      else if sel = 0x01#8 then readNamed .code (takeFields [3, 1] rest)
      else if sel = 0x02#8 then readNamed .car (takeFields [2, 1] rest)
      else none := rfl

/-- A number within its range fits its field. -/
theorem within_fits {lo hi n m : Nat} (h : hi < m) (P : Prop) :
    ((lo ≤ n ∧ n ≤ hi) ∧ n < m ∧ P) ↔ lo ≤ n ∧ n ≤ hi ∧ P :=
  ⟨fun ⟨⟨h1, h2⟩, _, hp⟩ => ⟨h1, h2, hp⟩, fun ⟨h1, h2, hp⟩ => ⟨⟨h1, h2⟩, by omega, hp⟩⟩

theorem ReadRecordArgs.parse_iff {bs : List Byte} {a : ReadRecordArgs} :
    ReadRecordArgs.parse bs = some a ↔ SpellsReadRecord bs a := by
  obtain ⟨who, clear⟩ := a
  cases bs with
  | nil => cases who <;> simp [ReadRecordArgs.parse, SpellsReadRecord]
  | cons sel rest =>
    rw [ReadRecordArgs.parse_cons]
    by_cases h0 : sel = 0x00#8
    · subst h0
      cases who <;> simp [readNamed_iff, SpellsReadRecord, RecordName.inRange, slotOk, within_iff, inByte, within_fits]
    · by_cases h1 : sel = 0x01#8
      · subst h1
        cases who <;> simp [readNamed_iff, SpellsReadRecord, RecordName.inRange, codeOk, within_iff, Config.maxCode, and_assoc]
        intros
        omega
      · by_cases h2 : sel = 0x02#8
        · subst h2
          cases who <;> simp [readNamed_iff, SpellsReadRecord, RecordName.inRange, carOk, within_iff, and_assoc]
          intros
          omega
        · cases who <;> simp [h0, h1, h2, SpellsReadRecord]

/-- DISMISS UNKNOWN of one code. -/
def dismissOne (v : Option (List Nat)) : Option DismissArgs :=
  match v with
  | some [n, c] =>
    match choiceOf c with
    | some b => checked (fun a => a.code.all codeOk) { code := some n, clearFull := b }
    | none => none
  | _ => none

theorem dismissOne_iff {bs : List Byte} {a : DismissArgs} :
    dismissOne (takeFields [3, 1] bs) = some a ↔
      ∃ n, a.code = some n ∧ codeWithin n ∧ bs = beBytes 3 n ++ [clearByte a.clearFull] := by
  constructor
  · intro h
    unfold dismissOne at h
    split at h
    · rename_i hfields
      split at h
      · rename_i hchoice
        obtain ⟨hin, rfl⟩ := checked_eq_some.1 h
        obtain ⟨-, -, rfl⟩ := nameAndChoice_iff.1 ⟨hfields, hchoice⟩
        exact ⟨_, rfl, by simpa [codeOk, within_iff, Config.maxCode] using hin, rfl⟩
      · exact nomatch h
    · exact nomatch h
  · obtain ⟨code, clear⟩ := a
    rintro ⟨n, rfl, hn, rfl⟩
    obtain ⟨hfields, hchoice⟩ := nameAndChoice_iff (w := 3) (b := clear).2 ⟨hn.2.trans_lt (by decide), rfl, rfl⟩
    simp only [dismissOne, hfields, hchoice]
    exact checked_eq_some.2 ⟨by simpa [codeOk, within_iff, Config.maxCode] using hn, rfl⟩

theorem DismissArgs.parse_cons (sel : Byte) (rest : List Byte) :
    DismissArgs.parse (sel :: rest) =
      if sel = 0x00#8 then dismissOne (takeFields [3, 1] rest)
      else if sel = 0x01#8 then oneByte (fun c => (choiceOf c).map fun b => { code := none, clearFull := b }) rest
      else none := rfl

theorem dismissAll_iff {bs : List Byte} {a : DismissArgs} :
    oneByte (fun c => (choiceOf c).map fun b => ({ code := none, clearFull := b } : DismissArgs)) bs = some a ↔
      a.code = none ∧ bs = [clearByte a.clearFull] := by
  rw [oneByte_iff]
  constructor
  · rintro ⟨c, -, hc, rfl⟩
    obtain ⟨b, hb, rfl⟩ := Option.map_eq_some_iff.1 hc
    rw [choiceOf_eq_some] at hb
    subst hb
    exact ⟨rfl, by cases b <;> rfl⟩
  · obtain ⟨code, clear⟩ := a
    rintro ⟨rfl, rfl⟩
    refine ⟨if clear then 1 else 0, by cases clear <;> decide, ?_, by cases clear <;> rfl⟩
    rw [choiceOf_eq_some.2 rfl]
    rfl

theorem DismissArgs.parse_iff {bs : List Byte} {a : DismissArgs} :
    DismissArgs.parse bs = some a ↔ SpellsDismiss bs a := by
  obtain ⟨code, clear⟩ := a
  cases bs with
  | nil => cases code <;> simp [DismissArgs.parse, SpellsDismiss]
  | cons sel rest =>
    rw [DismissArgs.parse_cons]
    by_cases h0 : sel = 0x00#8
    · subst h0
      cases code <;> simp [dismissOne_iff, SpellsDismiss]
    · by_cases h1 : sel = 0x01#8
      · subst h1
        cases code <;> simp [dismissAll_iff, SpellsDismiss]
      · cases code <;> simp [h0, h1, SpellsDismiss]

/-! ## The bytes that spell arguments (R169) -/

theorem SetLoopArgs.parse_iff {bs : List Byte} {a : SetLoopArgs} : SetLoopArgs.parse bs = some a ↔ SpellsSetLoop bs a := by
  have hbytes : a.bytes = [inByte a.link.val, roleByte a.role, inByte a.linePos] ++ beBytes 2 a.settings.latency ++
      [inByte a.settings.threshold, inByte a.settings.saturation, inByte a.settings.closeGap] ++
      beBytes 2 a.settings.maxDwell ++ [inByte a.settings.minHits, inByte a.settings.maxAge] ++
      beBytes 2 a.settings.silence ++ [livenessByte a.settings.liveness] := by
    simp [SetLoopArgs.bytes, putFields, inByte]
  rw [SetLoopArgs.parse_eq_some, SetLoopArgs.inRange_iff, hbytes]
  exact ⟨fun ⟨⟨⟨h1, h2⟩, h3⟩, h4⟩ => ⟨h1, h3, h2, h4⟩, fun ⟨h1, h3, h2, h4⟩ => ⟨⟨⟨h1, h2⟩, h3⟩, h4⟩⟩

theorem SetSectorArgs.parse_iff {bs : List Byte} {a : SetSectorArgs} :
    SetSectorArgs.parse bs = some a ↔ SpellsSetSector bs a := by
  have hbytes : a.bytes = [inByte a.sector.val] ++ beBytes 4 a.minimum := by
    simp [SetSectorArgs.bytes, putFields, inByte]
  rw [SetSectorArgs.parse_eq_some, hbytes, SetSectorArgs.inRange, within_iff]
  exact ⟨fun ⟨⟨_, h⟩, he⟩ => ⟨h, he⟩, fun ⟨h, he⟩ => ⟨⟨Nat.zero_le _, h⟩, he⟩⟩

theorem PitSettings.parse_iff {bs : List Byte} {a : PitSettings} : PitSettings.parse bs = some a ↔ SpellsSetPit bs a := by
  have hbytes : a.bytes = [inByte a.inAfter, inByte a.outBefore] ++ beBytes 4 a.length ++ beBytes 2 a.limit := by
    simp [PitSettings.bytes, putFields, inByte]
  rw [PitSettings.parse_eq_some, hbytes, PitSettings.inRange_iff]
  simp only [and_assoc]

theorem ClearFlagsArgs.parse_iff {bs : List Byte} {a : ClearFlagsArgs} :
    ClearFlagsArgs.parse bs = some a ↔ SpellsClearFlags bs a := by
  rw [ClearFlagsArgs.parse_eq_some]
  obtain ⟨link, mask⟩ := a
  cases link <;> simp [SpellsClearFlags, ClearFlagsArgs.bytes, putFields, inByte]

theorem EnrolArgs.parse_iff {bs : List Byte} {a : EnrolArgs} : EnrolArgs.parse bs = some a ↔ SpellsEnrol bs a := by
  rw [EnrolArgs.parse_eq_some, EnrolArgs.inRange_iff]
  obtain ⟨code, car, cls, grid⟩ := a
  cases grid <;> simp [SpellsEnrol, EnrolArgs.bytes, putFields, inByte, and_assoc]

theorem AmendArgs.mask_eq (a : AmendArgs) :
    a.mask = maskOf [a.code.isSome, a.car.isSome, a.cls.isSome, (givenGrid a.grid).isSome, decide (a.grid = .remove)] := by
  obtain ⟨slot, code, car, cls, grid⟩ := a
  cases grid <;> simp [AmendArgs.mask, maskOf, givenGrid, Nat.add_assoc]

theorem AmendArgs.parse_iff {bs : List Byte} {a : AmendArgs} : AmendArgs.parse bs = some a ↔ SpellsAmend bs a := by
  have hone : ∀ o : Option Nat, optField 1 o = o.toList.map inByte := fun o => by cases o <;> rfl
  rw [AmendArgs.parse_eq_some, AmendArgs.inRange_iff, AmendArgs.bytes_eq, AmendArgs.mask_eq]
  simp only [hone, SpellsAmend, and_assoc, List.cons_append, List.nil_append]
  simp only [optField]

theorem AdjustArgs.parse_iff {bs : List Byte} {a : AdjustArgs} : AdjustArgs.parse bs = some a ↔ SpellsAdjust bs a := by
  have hbytes : a.bytes = [inByte a.slot] ++ beBytes 2 (a.laps % 65536).toNat ++ beBytes 4 a.penalty := by
    simp [AdjustArgs.bytes, putFields, inByte, unsignedOf]
  rw [AdjustArgs.parse_eq_some, hbytes, AdjustArgs.inRange_iff]
  simp only [and_assoc]

theorem ReadOrderArgs.parse_iff {bs : List Byte} {a : ReadOrderArgs} :
    ReadOrderArgs.parse bs = some a ↔ SpellsReadOrder bs a := by
  have hbytes : a.bytes = [inByte a.first, inByte a.count] := by simp [ReadOrderArgs.bytes, putFields, inByte]
  rw [ReadOrderArgs.parse_eq_some, hbytes, ReadOrderArgs.inRange, Bool.and_eq_true, within_iff, within_iff]
  simp only [and_assoc]

theorem SessionSetup.parse_iff {bs : List Byte} {a : SessionSetup} :
    SessionSetup.parse bs = some a ↔ SpellsSetup bs a := by
  have hbytes : a.bytes = [typeByte a.type] ++ beBytes 2 a.lapLimit ++ beBytes 2 a.timeLimit ++
      [inByte a.closeTimeout, inByte a.echoGuard, deltaByte a.delta] := by
    simp [SessionSetup.bytes, putFields, inByte]
  rw [SessionSetup.parse_eq_some, hbytes, SessionSetup.inRange_iff]
  simp only [and_assoc]
  rfl

theorem RolloverArgs.parse_iff {bs : List Byte} {a : RolloverArgs} :
    RolloverArgs.parse bs = some a ↔ SpellsRollover bs a := by
  rw [RolloverArgs.parse_eq_some]
  simp [SpellsRollover, RolloverArgs.bytes, putFields, inByte, CarrySet.code_eq_maskOf]

theorem ReadRecordArgs.parse_bytes {a : ReadRecordArgs} (ha : a.who.inRange = true) :
    ReadRecordArgs.parse a.bytes = some a := by
  refine ReadRecordArgs.parse_iff.2 ?_
  obtain ⟨who, clear⟩ := a
  cases who <;> cases clear <;>
    simp_all [SpellsReadRecord, codeWithin, carWithin, RecordName.inRange, slotOk, codeOk, carOk, within_iff, Config.maxCode,
      ReadRecordArgs.bytes, putFields, inByte, clearByte]

theorem DismissArgs.parse_bytes {a : DismissArgs} (ha : a.code.all codeOk = true) :
    DismissArgs.parse a.bytes = some a := by
  refine DismissArgs.parse_iff.2 ?_
  obtain ⟨code, clear⟩ := a
  cases code <;> cases clear <;>
    simp_all [SpellsDismiss, codeWithin, codeOk, within_iff, Config.maxCode, DismissArgs.bytes, putFields, clearByte]

/-- Settles O6: what is read is written back the same, and what is written is read back: both directions of every request's
arguments. -/
theorem argumentsParse : Obligations.ArgumentsParse := by
  refine ⟨fun x => ?_, fun a ha hpos => SetLoopArgs.parse_eq_some.2 ⟨⟨ha, hpos⟩, rfl⟩,
    fun a ha => SetSectorArgs.parse_eq_some.2 ⟨ha, rfl⟩, fun a ha => PitSettings.parse_eq_some.2 ⟨ha, rfl⟩,
    fun l => parseLink_iff.2 rfl, fun a => ClearFlagsArgs.parse_eq_some.2 rfl,
    fun a ha => EnrolArgs.parse_eq_some.2 ⟨ha, rfl⟩, fun a ha => AmendArgs.parse_eq_some.2 ⟨ha, rfl⟩, fun n hn => ?_,
    fun a ha => AdjustArgs.parse_eq_some.2 ⟨ha, rfl⟩, fun _ => ReadRecordArgs.parse_bytes, fun _ => DismissArgs.parse_bytes,
    fun a ha => ReadOrderArgs.parse_eq_some.2 ⟨ha, rfl⟩, fun a ha => SessionSetup.parse_eq_some.2 ⟨ha, rfl⟩,
    RolloverArgs.parse_bytes, fun n hn => parseModeration_iff.2 ⟨hn, rfl⟩, fun bs =>
    ⟨parseNone_iff, fun _ => parseSource_iff, fun _ => SetLoopArgs.parse_iff, fun _ => SetSectorArgs.parse_iff,
      fun _ => PitSettings.parse_iff, fun _ => parseLink_iff, fun _ => ClearFlagsArgs.parse_iff,
      fun _ => EnrolArgs.parse_iff, fun _ => AmendArgs.parse_iff, fun _ => ⟨parseSlot_iff, parseCapacity_iff⟩,
      fun _ => AdjustArgs.parse_iff, fun _ => ReadRecordArgs.parse_iff, fun _ => DismissArgs.parse_iff,
      fun _ => ReadOrderArgs.parse_iff, fun _ => SessionSetup.parse_iff, fun _ => RolloverArgs.parse_iff,
      fun _ => parseModeration_iff⟩⟩
  · refine parseSource_iff.2 ?_
    cases x <;> rfl
  · obtain ⟨h1, h2⟩ := within_iff.1 hn
    exact ⟨parseSlot_iff.2 ⟨h1, h2, rfl⟩, parseCapacity_iff.2 ⟨h1, h2, rfl⟩⟩

end Sys2Proof.Machine
end

section
/-! Request frames (R156, R168), and reports as frames and as characters on the line (R23, R27, R170). -/

namespace Sys2Proof.Machine

/-! ## The check byte -/

/-- Bytes with their check byte leave the register at 00h. -/
theorem crc8_withCheck (bs : List Byte) : crc8 (withCheck bs) = 0#8 := by
  have hzero : ∀ r : Byte, crcByte r r = 0#8 := fun r => by
    rw [crcByte, BitVec.xor_self]
    rfl
  rw [withCheck, crc8, List.foldl_append]
  exact hzero _

/-! ## Request frames (R156, R168) -/

theorem requestFrame_eq (k : RequestKind) (args : List Byte) :
    ∃ c : Byte, requestFrame k args = inByte k.code :: inByte args.length :: (args ++ [c]) := ⟨_, rfl⟩

theorem RequestKind.code_lt (k : RequestKind) : k.code < 255 := by cases k <;> decide

theorem RequestKind.ofCode_code (k : RequestKind) : RequestKind.ofCode (inByte k.code).toNat = some k := by
  rw [toNat_inByte ((RequestKind.code_lt k).trans (by decide))]
  exact kind_code.2 rfl

theorem frameSound_requestFrame (k : RequestKind) {args : List Byte} (h : args.length ≤ 32) :
    frameSound (requestFrame k args) = true := by
  have hcrc : crc8 (requestFrame k args) = 0#8 := crc8_withCheck _
  obtain ⟨c, hc⟩ := requestFrame_eq k args
  rw [hc] at hcrc ⊢
  simp [frameSound, toNat_inByte (show args.length < 256 by omega), h, hcrc]

/-- Settles O4, from the parts of the frame. -/
theorem requestFramesDecode : Obligations.RequestFramesDecode := by
  intro k args h
  have hsound := frameSound_requestFrame k h
  obtain ⟨c, hc⟩ := requestFrame_eq k args
  have hselection : inByte k.code ≠ 0xff#8 := fun he => by
    have hcode := toNat_inByte ((RequestKind.code_lt k).trans (by decide))
    rw [he] at hcode
    exact absurd hcode (Nat.ne_of_gt (RequestKind.code_lt k))
  refine ⟨by simp [hc], ?_, by cases k <;> rfl⟩
  rw [hc] at hsound ⊢
  simp [decodeSelection, hselection, hsound, RequestKind.ofCode_code]

/-! ## Reports as frames (R27, R170) -/

theorem code_bytes (c : BitVec 24) : c.extractLsb' 16 8 ++ c.extractLsb' 8 8 ++ c.extractLsb' 0 8 = c := by
  refine BitVec.eq_of_getLsbD_eq fun i hi => ?_
  simp only [BitVec.getLsbD_append, BitVec.getLsbD_extractLsb']
  by_cases h0 : i < 8
  · simp [h0]
  · by_cases h1 : i - 8 < 8
    · have hi' : 8 + (i - 8) = i := by omega
      simp [h0, h1, hi']
    · have hi' : 16 + (i - 8 - 8) = i := by omega
      have h2 : i - 8 - 8 < 8 := by omega
      simp [h0, h1, h2, hi']

theorem offset_bytes (o : BitVec 16) : o.extractLsb' 8 8 ++ o.extractLsb' 0 8 = o := by
  refine BitVec.eq_of_getLsbD_eq fun i hi => ?_
  simp only [BitVec.getLsbD_append, BitVec.getLsbD_extractLsb']
  by_cases h0 : i < 8
  · simp [h0]
  · have hi' : 8 + (i - 8) = i := by omega
    have h1 : i - 8 < 8 := by omega
    simp [h0, h1, hi']

theorem decodeReport_encodeReport {i : Instr} {l : LinkNo} {chars : List Byte} (hw : i.wellFormed = true)
    (h : encodeReport i = some (l, chars)) : decodeReport l chars = some i := by
  have hchars : ∀ bs : List Byte, crc8 (withCheck bs) = 0#8 := crc8_withCheck
  cases i with
  | hit l' c m o st =>
    obtain ⟨rfl, rfl⟩ := Prod.mk.inj (Option.some.inj h)
    have hcrc := hchars [0x01#8, c.extractLsb' 16 8, c.extractLsb' 8 8, c.extractLsb' 0 8, m, o.extractLsb' 8 8,
      o.extractLsb' 0 8, st]
    simp only [Instr.wellFormed, Bool.and_eq_true, decide_eq_true_eq] at hw
    simp only [withCheck, List.cons_append, List.nil_append] at hcrc ⊢
    simp only [decodeReport, hcrc, code_bytes, offset_bytes, hw]
    simp
  | echo l' m =>
    obtain ⟨rfl, rfl⟩ := Prod.mk.inj (Option.some.inj h)
    have hcrc := hchars [0x02#8, m]
    simp only [withCheck, List.cons_append, List.nil_append] at hcrc ⊢
    simp [decodeReport, hcrc]
  | noise l' v =>
    obtain ⟨rfl, rfl⟩ := Prod.mk.inj (Option.some.inj h)
    have hcrc := hchars [0x03#8, v]
    simp only [withCheck, List.cons_append, List.nil_append] at hcrc ⊢
    simp [decodeReport, hcrc]
  | _ => exact nomatch h

/-! ## Reports on the line (R23, R170) -/

theorem controlMark_dataChar (b : Byte) : (0#1 ++ b : BitVec 9).getLsbD 8 = false := by
  rw [BitVec.getLsbD_append]
  rfl

theorem dataChar_ne_delimiter (b : Byte) : (0#1 ++ b : BitVec 9) ≠ delimiter := fun h => by
  have hbit := controlMark_dataChar b
  rw [h] at hbit
  exact absurd hbit (by decide)

theorem dataOf_dataChar (b : Byte) : dataOf (0#1 ++ b : BitVec 9) = some b := by
  rw [dataOf, controlMark_dataChar]
  exact congrArg some (BitVec.setWidth_append_eq_right ..)

/-- Data characters join the frame where one has begun, and pass otherwise. -/
theorem LineReader.takeAll_data (r : LineReader) (l : LinkNo) (data : List Byte) (rest : List LinkChar) :
    r.takeAll l ((data.map fun b => (0#1 ++ b : BitVec 9)) ++ rest) =
      LineReader.takeAll { r with frame := r.frame.map (· ++ data) } l rest := by
  induction data generalizing r with
  | nil =>
    obtain ⟨framed, seen, frame⟩ := r
    cases frame <;> simp
  | cons b data ih =>
    have htake : r.take l (0#1 ++ b : BitVec 9) = ({ r with frame := r.frame.map fun bs => bs ++ [b] }, []) := by
      rw [LineReader.take, if_neg (dataChar_ne_delimiter b), dataOf_dataChar]
    rw [List.map_cons, List.cons_append, LineReader.takeAll, htake]
    dsimp only
    rw [ih]
    cases r.frame <;> simp

theorem LineReader.takeAll_delimiter (r : LineReader) (l : LinkNo) (rest : List LinkChar) :
    r.takeAll l (0x17e#9 :: rest) =
      if r.framed then
        (({ r with frame := some [] } : LineReader).takeAll l rest).map id (frameCommand l r.frame :: ·)
      else if r.seen then
        (({ framed := true, seen := false, frame := none } : LineReader).takeAll l rest).map id (.framingGained l :: ·)
      else ({ r with seen := true } : LineReader).takeAll l rest := by
  rw [LineReader.takeAll, LineReader.take, if_pos (by rfl)]
  split
  · rfl
  · split <;> rfl

/-- Settles O5: a frame is read back by its check and its bytes, and the line gives the reader those bytes. -/
theorem reportsDecode : Obligations.ReportsDecode := by
  refine ⟨fun i l chars hw h => ?_, fun r l data => ⟨fun hframed hframe => ⟨?_, ?_⟩, fun hframed hframe hseen => ?_⟩⟩
  · have hdecode := decodeReport_encodeReport hw h
    refine ⟨hdecode, fun r hframed hframe => ?_⟩
    obtain ⟨framed, seen, frame⟩ := r
    subst hframed hframe
    rw [LineReader.takeAll_data, LineReader.takeAll_delimiter]
    simp [LineReader.takeAll, frameCommand, hdecode]
  · obtain ⟨framed, seen, frame⟩ := r
    subst hframed hframe
    have hdata := LineReader.takeAll_data { framed := true, seen := seen, frame := none } l data []
    simpa [LineReader.takeAll] using hdata
  · obtain ⟨framed, seen, frame⟩ := r
    subst hframed hframe
    rw [LineReader.takeAll_data, LineReader.takeAll_delimiter]
    simp [LineReader.takeAll, frameCommand, decodeReport]
  · obtain ⟨framed, seen, frame⟩ := r
    subst hframed hframe hseen
    rw [List.cons_append, LineReader.takeAll_delimiter]
    simp only [Bool.false_eq_true, if_false]
    rw [LineReader.takeAll_data, LineReader.takeAll_delimiter]
    simp [LineReader.takeAll]

end Sys2Proof.Machine
end

section
/-! Framing, the silence expiry, and reports that reach no one (R23 to R27, R30, R31). -/

namespace Sys2Proof.Machine

/-! ## One link rewritten, with a flag -/

theorem State.setLink_setLoopFlag_eq_withLink {s : State} {l : LinkNo} {k : Link} (h : k.flags = (s.link l).flags)
    (f : LoopFlag) : (s.setLink l k).setLoopFlag l f = s.withLink l k [f] := by
  rw [s.setLink_eq_withLink l h, State.setLoopFlag_withLink]
  rfl

/-- An event on one link that ends in `settleAttention` is the link event it is. -/
theorem State.linkEvent_of_eq {s u : State} {l : LinkNo} {k : Link} {fs : List LoopFlag} (hl : s.report.legal)
    (h : u = s.withLink l k fs) :
    KeepsPort s u.settleAttention ∧ LinkEvent s u.settleAttention l k fs := h ▸ s.withLink_linkEvent l fs hl

/-! ## Framing (R23, R24, R26) -/

theorem Link.framed_iff {k : Link} : k.framed = true ↔ k.framing ≠ none := Option.isSome_iff_ne_none

theorem State.gainFraming_of_down {s : State} {l : LinkNo} (h : (s.link l).framing = none)
    (hd : (s.link l).state = .down) :
    s.gainFraming l =
      s.withLink l { s.link l with framing := some (s.now + 1000), state := .silent } [.linkState] := by
  have hframed : (s.link l).framed = false := by rw [Link.framed, h]; rfl
  rw [State.gainFraming, if_pos ⟨hframed, hd⟩]
  refine State.setLink_setLoopFlag_eq_withLink ?_ _
  rfl

theorem State.gainFraming_of_kept {s : State} {l : LinkNo}
    (h : (s.link l).framing ≠ none ∨ (s.link l).state ≠ .down) :
    s.gainFraming l = s.withLink l { s.link l with framing := some (s.now + 1000) } [] := by
  have hkept : ¬((s.link l).framed = false ∧ (s.link l).state = .down) := fun ⟨hf, hd⟩ =>
    h.elim (fun hn => nomatch hf.symm.trans (Link.framed_iff.2 hn)) (fun hn => hn hd)
  rw [State.gainFraming, if_neg hkept]
  exact s.setLink_eq_withLink l rfl

theorem State.loseFraming_of_due {s : State} {l : LinkNo} {e : Nat} (h : (s.link l).framing = some e) (he : e ≤ s.now) :
    s.loseFraming l = (s.framingHappens l).settleAttention := by
  have hdue : s.framingDue l = true := by simp [State.framingDue, h, reached, he]
  rw [State.loseFraming, if_pos hdue]

theorem State.loseFraming_of_early {s : State} {l : LinkNo} {e : Nat} (h : (s.link l).framing = some e)
    (he : s.now < e) : s.loseFraming l = s := by
  have hdue : ¬ s.framingDue l = true := by simp [State.framingDue, h, reached, he]
  rw [State.loseFraming, if_neg hdue]

theorem State.framingHappens_of_live {s : State} {l : LinkNo} (h : (s.link l).state = .live) :
    s.framingHappens l = s.withLink l ({ s.link l with framing := none }.afterLive .down s.now) [.linkState] := by
  simp only [State.framingHappens, h]
  refine State.setLink_setLoopFlag_eq_withLink ?_ _
  rfl

theorem State.framingHappens_of_silent {s : State} {l : LinkNo} (h : (s.link l).state = .silent) :
    s.framingHappens l = s.withLink l { s.link l with framing := none, state := .down } [.linkState] := by
  simp only [State.framingHappens, h]
  refine State.setLink_setLoopFlag_eq_withLink ?_ _
  rfl

theorem State.framingHappens_of_off {s : State} {l : LinkNo} (h : (s.link l).state = .off) :
    s.framingHappens l = s.withLink l { s.link l with framing := none } [] := by
  simp only [State.framingHappens, h]
  refine s.setLink_eq_withLink l ?_
  rfl

theorem State.silenceHappens_eq (s : State) (l : LinkNo) :
    s.silenceHappens l = s.withLink l ((s.link l).afterLive .silent s.now) [.linkState] := by
  refine State.setLink_setLoopFlag_eq_withLink ?_ _
  rfl

/-- Settles O14: a case for each link state in which the event finds the link. -/
theorem framing : Obligations.Framing := by
  intro s l hl hk
  refine ⟨fun hn => ⟨_, rfl, ?_⟩, fun hn => ⟨_, rfl, ?_⟩, fun e he hdue => ⟨_, rfl, ?_⟩,
    fun e he hearly => congrArg Host.Outcome.next (State.loseFraming_of_early he hearly),
    fun hlive e he hdue => ⟨_, rfl, ?_⟩⟩
  · by_cases hd : (s.link l).state = .down
    · obtain ⟨hport, hevent⟩ := State.linkEvent_of_eq hl (State.gainFraming_of_down hn hd)
      exact ⟨hport, fun _ => hevent, fun hoff => nomatch hd.symm.trans hoff⟩
    · obtain ⟨hport, hevent⟩ := State.linkEvent_of_eq hl (State.gainFraming_of_kept (.inr hd))
      exact ⟨hport, fun h => absurd h hd, fun _ => hevent⟩
  · exact State.linkEvent_of_eq hl (State.gainFraming_of_kept (.inl hn))
  · rw [State.loseFraming_of_due he hdue]
    cases hs : (s.link l).state with
    | live =>
      obtain ⟨hport, hevent⟩ := State.linkEvent_of_eq hl (State.framingHappens_of_live hs)
      exact ⟨hport, fun _ => hevent, (nomatch ·), (nomatch ·)⟩
    | silent =>
      obtain ⟨hport, hevent⟩ := State.linkEvent_of_eq hl (State.framingHappens_of_silent hs)
      exact ⟨hport, (nomatch ·), fun _ => hevent, (nomatch ·)⟩
    | off =>
      obtain ⟨hport, hevent⟩ := State.linkEvent_of_eq hl (State.framingHappens_of_off hs)
      exact ⟨hport, (nomatch ·), (nomatch ·), fun _ => hs ▸ hevent⟩
    | down =>
      obtain ⟨-, -, -, hoff, hdown, -⟩ := hk
      have hrole : (s.link l).role ≠ .off := fun h => nomatch hs.symm.trans (hoff.1 h)
      exact nomatch he.symm.trans ((hdown hrole).2 hs)
  · have hhappens : s.silenceDue l = true := by simp [State.silenceDue, hlive, he, reached, hdue]
    rw [State.silenceExpiry, if_pos hhappens]
    exact State.linkEvent_of_eq hl (s.silenceHappens_eq l)

/-! ## Reports that are not received, and reports that are discarded (R23, R27, R30, R31) -/

theorem State.takeReport_of_lost {s : State} {l : LinkNo} (h : (s.link l).framing = none) (handle : State → State) :
    s.takeReport l handle = s := by
  have hframed : ¬ (s.link l).framed = true := fun hf => Link.framed_iff.1 hf h
  simp [State.takeReport, State.seeDelimiter, State.receives, hframed]

theorem State.takeReport_of_off {s : State} {l : LinkNo} (h : (s.link l).framing ≠ none)
    (hoff : (s.link l).role = .off) (handle : State → State) :
    s.takeReport l handle = s.setLink l ((s.link l).heard s.now) := by
  rw [Link.heard_eq_sawDelimiter h]
  simp [State.takeReport, State.seeDelimiter, State.receives, Link.framed_iff.2 h, State.link_setLink_self, hoff]

/-- The end of an event that leaves the race alone: nothing but RECORDS and the latch is settled. -/
theorem closeEvent_of_race {s u : State} (hs : s.orderAgrees) (htable : u.table = s.table)
    (horder : u.order = s.order) (hsession : u.session = s.session) : closeEvent s u = u.settleAttention := by
  have hreorder : u.reorder = u := State.reorder_race hs htable (congrArg OrderBlock.list horder)
    (State.keyType_of_setup (congrArg Session.setup hsession))
  have hitems : u.sessionItems = s.sessionItems := by
    simp only [State.sessionItems, State.countIn, htable, hsession]
  rw [closeEvent, hreorder, raiseSession, if_pos hitems]

/-- The same for an event on one link that only rewrites it and sets flags on it. -/
theorem State.closeEvent_withLink {s : State} (hs : s.orderAgrees) (l : LinkNo) (k : Link) (fs : List LoopFlag) :
    closeEvent s (s.withLink l k fs) = (s.withLink l k fs).settleAttention := closeEvent_of_race hs rfl rfl rfl

/-- A report that is not valid, or a HIT that goes no further, sets one flag and ends there. -/
theorem State.closeEvent_linkEvent {s u : State} {l : LinkNo} {k : Link} {fs : List LoopFlag} (hs : s.settled)
    (h : u = s.withLink l k fs) : LinkEvent s (closeEvent s u) l k fs := by
  rw [h, State.closeEvent_withLink hs.1]
  exact (s.withLink_linkEvent l fs hs.2).2

theorem State.corruptReport_eq (s : State) (l : LinkNo) : s.corruptReport l = s.withLink l (s.link l) [.corrupt] := by
  have hflag := s.setLoopFlag_withLink l (k := s.link l) [] .corrupt
  rwa [s.withLink_link l] at hflag

theorem hitTime_eq (k : Link) (count : Nat) (m : BitVec 8) (o : Nat) :
    hitTime (count - markAge count m.toNat) o k.settings.latency = hitInstant k count m.toNat o := by
  rw [hitTime, hitInstant, markAge_eq_ageOf]

/-- What a valid HIT meets once its link is restarted: it is too old, or it is checked for its time (R30, R31). -/
theorem State.takeHit_eq {s : State} {l : LinkNo} {k : Link} {m : BitVec 8} (hk : s.link l = k) (h : k.awake)
    (code o x : Nat) :
    s.takeHit l code m.toNat o x =
      if tooOld k s.time.mark m.toNat then s.withLink l (k.afterValid s.now) (k.validFlags ++ [.stale])
      else (s.withLink l (k.afterValid s.now) k.validFlags).acceptHit l code (hitInstant k s.time.mark m.toNat o) x := by
  subst k
  unfold State.takeHit
  rw [State.trafficRestart_eq_withLink h]
  simp only [State.link_withLink_self, Link.afterValid_settings, State.withLink_time, staleAge_eq_tooOld, hitTime_eq,
    State.setLoopFlag_withLink]

@[simp] theorem Link.afterValid_latestHit (k : Link) (now : Nat) : (k.afterValid now).latestHit = k.latestHit := by
  unfold Link.afterValid; split <;> rfl

@[simp] theorem Link.afterValid_passings (k : Link) (now : Nat) : (k.afterValid now).passings = k.passings := by
  unfold Link.afterValid; split <;> rfl

/-- A hit that is not too old and comes in time order is the latest accepted hit, and is handed to the assembler
(R31). -/
theorem State.acceptHit_withLink {s : State} {l : LinkNo} {k : Link} {fs : List LoopFlag} (code t x : Nat) :
    (s.withLink l k fs).acceptHit l code t x =
      if s.now < t then s.withLink l k (fs ++ [.corrupt])
      else if k.latestHit.any (fun u => decide (t < u)) then s.withLink l k (fs ++ [.outOfOrder])
      else (s.withLink l { k with latestHit := some t } fs).assemble l code t x := by
  simp only [State.acceptHit, State.link_withLink_self, State.withLink_now, State.setLoopFlag_withLink]
  rw [s.setLink_withLink l fs rfl]
  rfl

/-- A HIT that is received, with its fields out of range or within it (R27, R30). -/
theorem exec_hit_of_hears {s : State} {l : LinkNo} (hk : (s.link l).legal) (hh : (s.link l).hears) (c : BitVec 24)
    (m : BitVec 8) (o : BitVec 16) (x : BitVec 8) :
    exec (.hit l c m o x) s = .next (closeEvent s
      (if 1 ≤ c.toNat ∧ c.toNat ≤ 16777214 ∧ o.toNat ≤ 9999 then
        if tooOld ((s.link l).heard s.now) s.time.mark m.toNat then
          s.withLink l (((s.link l).heard s.now).afterValid s.now) (((s.link l).heard s.now).validFlags ++ [.stale])
        else
          (s.withLink l (((s.link l).heard s.now).afterValid s.now) ((s.link l).heard s.now).validFlags).acceptHit l
            c.toNat (hitInstant ((s.link l).heard s.now) s.time.mark m.toNat o.toNat) x.toNat
      else s.withLink l ((s.link l).heard s.now) [.corrupt])) := by
  have hawake : ((s.link l).heard s.now).awake := hk.awake_of_hears hh
  have hlink := s.link_setLink_self l ((s.link l).heard s.now)
  have hvalid : codeOk c.toNat = true ∧ o.toNat ≤ 9999 ↔ 1 ≤ c.toNat ∧ c.toNat ≤ 16777214 ∧ o.toNat ≤ 9999 := by
    rw [codeOk, within_iff, and_assoc]
  have hkeeps := fun (k : Link) (fs : List LoopFlag) =>
    s.withLink_setLink l fs (k := (s.link l).heard s.now) (Link.heard_flags ..) k
  refine congrArg Host.Outcome.next ((State.takeReport_of_hears hh _).trans ?_)
  rw [State.takeHit_eq hlink hawake, State.corruptReport_eq, hlink, hkeeps, hkeeps, hkeeps]
  simp only [hvalid]
  rfl

end Sys2Proof.Machine
end

section
/-! Hits at the open passing table, and passings that close (R30, R31, R37 to R47). -/

namespace Sys2Proof.Machine

/-! ## Maps with a key put or removed -/

section Maps
variable {α : Type}

theorem KeyMap.remove_of_find_none {m : KeyMap α} {k : Nat} (h : m.find k = none) : m.remove k = m := by
  induction m with
  | nil => rfl
  | cons p rest ih =>
    obtain ⟨j, b⟩ := p
    by_cases hj : j = k
    · simp [KeyMap.find, hj] at h
    · simp only [KeyMap.find, if_neg hj] at h
      simp only [KeyMap.remove, if_neg hj, ih h]

theorem KeyMap.remove_put {m : KeyMap α} (hw : m.wf) (k : Nat) (a : α) : (m.put k a).remove k = m.remove k := by
  induction m with
  | nil => simp [KeyMap.put, KeyMap.remove]
  | cons p rest ih =>
    obtain ⟨j, b⟩ := p
    obtain ⟨hfirst, hrest⟩ := List.pairwise_cons.1 hw
    simp only [KeyMap.put]
    split
    · rename_i hlt
      have hfree : KeyMap.find ((j, b) :: rest) k = none := KeyMap.find_none_iff.2 fun hk => by
        rcases List.mem_cons.1 hk with rfl | hk
        · exact Nat.lt_irrefl _ hlt
        · exact Nat.lt_asymm hlt (hfirst k hk)
      rw [KeyMap.remove_of_find_none hfree]
      simp [KeyMap.remove]
    · split
      · rename_i heq
        simp [KeyMap.remove, heq]
      · rename_i hne
        have hj : ¬ j = k := fun h => hne h.symm
        simp only [KeyMap.remove, if_neg hj, ih hrest]

end Maps

/-! ## The assembler on a link that an event has rewritten (R37 to R42, R47) -/

section WithLink

variable (s : State) (l : LinkNo) (k : Link) (fs : List LoopFlag)

theorem State.setPassings_withLink (m : KeyMap Entry) :
    (s.withLink l k fs).setPassings l m = s.withLink l { k with passings := m } fs := by
  rw [State.setPassings, State.link_withLink_self]
  exact s.setLink_withLink l fs (k' := { k with flags := addFlags (s.link l).flags fs, passings := m }) rfl

theorem State.closePassing_withLink (code : Nat) (p : OpenPassing) (q : Quality) :
    (s.withLink l k fs).closePassing l code p q =
      if p.count < k.settings.minHits then s.withLink l k (fs ++ [.sparse])
      else (s.withLink l k fs).handOn l code p.time q := by
  rw [State.closePassing, State.link_withLink_self, State.setLoopFlag_withLink]

/-- An expiry that is already reached happens at once (R2). -/
theorem State.putPassing_withLink (hw : k.passings.wf) (code : Nat) (p : OpenPassing) :
    (s.withLink l k fs).putPassing l code p =
      if p.expiry ≤ s.now then
        (s.withLink l { k with passings := k.passings.remove code } fs).closePassing l code p p.quality
      else s.withLink l { k with passings := k.passings.put code (.passing p) } fs := by
  simp only [State.putPassing, State.closeNow, State.link_withLink_self, State.setPassings_withLink,
    State.withLink_now, KeyMap.remove_put hw]

/-- The table after a GUARD entry is written whose removal expiry may already be reached (R2, R40, R41). -/
def Link.guarded (k : Link) (code : Nat) (g : GuardEntry) (now : Nat) : KeyMap Entry :=
  if g.expiry ≤ now then k.passings.remove code else k.passings.put code (.guard g)

theorem State.putGuard_withLink (hw : k.passings.wf) (code : Nat) (g : GuardEntry) :
    (s.withLink l k fs).putGuard l code g = s.withLink l { k with passings := k.guarded code g s.now } fs := by
  simp only [State.putGuard, State.removeGuard, State.link_withLink_self, State.setPassings_withLink,
    State.withLink_now, KeyMap.remove_put hw, Link.guarded]
  split <;> rfl

theorem State.assemble_withLink (code t x : Nat) :
    (s.withLink l k fs).assemble l code t x =
      if x < k.settings.threshold then s.withLink l k (fs ++ [.weak])
      else (s.withLink l k (fs ++ if decide (k.settings.saturation ≤ x) then [.strong] else [])).tableHit l code t x := by
  simp only [State.assemble, State.link_withLink_self, State.setLoopFlag_withLink, decide_eq_true_eq]
  split
  · rfl
  · split <;> simp

variable {k}

theorem State.tableHit_of_none {code : Nat} (h : k.passings.find code = none) (t x : Nat) :
    (s.withLink l k fs).tableHit l code t x =
      if k.passings.length < 16 then
        (s.withLink l k fs).putPassing l code (OpenPassing.opened k.settings t x)
      else s.withLink l k (fs ++ [.crowded]) := by
  simp only [State.tableHit, State.link_withLink_self, h, State.openPassing, State.setLoopFlag_withLink]

theorem State.tableHit_of_passing {code : Nat} {p : OpenPassing} (h : k.passings.find code = some (.passing p))
    (t x : Nat) :
    (s.withLink l k fs).tableHit l code t x =
      if t ≤ p.first + dwellOf k.settings then
        (s.withLink l k fs).putPassing l code (p.joined k.settings t x)
      else ((s.withLink l k fs).putGuard l code (guardAt k.settings t)).closePassing l code p .stalled := by
  simp only [State.tableHit, State.link_withLink_self, h, State.joinPassing]

theorem State.tableHit_of_guard {code : Nat} {g : GuardEntry} (h : k.passings.find code = some (.guard g)) (t x : Nat) :
    (s.withLink l k fs).tableHit l code t x = (s.withLink l k fs).putGuard l code (guardAt k.settings t) := by
  simp only [State.tableHit, State.link_withLink_self, h]

end WithLink

/-! ## Hits leave the port as it was -/

theorem KeepsPort.refl (s : State) : KeepsPort s s := ⟨rfl, rfl, rfl, rfl, rfl⟩

theorem KeepsPort.trans {s t u : State} (h : KeepsPort s t) (k : KeepsPort t u) : KeepsPort s u := by
  obtain ⟨h1, h2, h3, h4, h5⟩ := h
  obtain ⟨k1, k2, k3, k4, k5⟩ := k
  exact ⟨k1.trans h1, k2.trans h2, k3.trans h3, k4.trans h4, k5.trans h5⟩

theorem State.setLoopFlag_keepsPort (s : State) (l : LinkNo) (f : LoopFlag) : KeepsPort s (s.setLoopFlag l f) := by
  unfold State.setLoopFlag
  split
  · exact .refl s
  · exact ⟨rfl, rfl, rfl, rfl, rfl⟩

theorem State.closePassing_keepsPort (s : State) (l : LinkNo) (code : Nat) (p : OpenPassing) (q : Quality) :
    KeepsPort s (s.closePassing l code p q) := by
  unfold State.closePassing
  split
  · exact s.setLoopFlag_keepsPort l _
  · exact (RacePart.handOn s l code _ q).port

theorem State.putPassing_keepsPort (s : State) (l : LinkNo) (code : Nat) (p : OpenPassing) :
    KeepsPort s (s.putPassing l code p) := by
  unfold State.putPassing
  dsimp only
  split
  · exact State.closePassing_keepsPort _ l code p _
  · exact .refl s

theorem State.putGuard_keepsPort (s : State) (l : LinkNo) (code : Nat) (g : GuardEntry) :
    KeepsPort s (s.putGuard l code g) := by
  unfold State.putGuard
  dsimp only
  split <;> exact .refl s

theorem State.tableHit_keepsPort (s : State) (l : LinkNo) (code t x : Nat) : KeepsPort s (s.tableHit l code t x) := by
  unfold State.tableHit
  split
  · unfold State.openPassing
    split
    · exact s.putPassing_keepsPort l code _
    · exact s.setLoopFlag_keepsPort l _
  · unfold State.joinPassing
    split
    · exact s.putPassing_keepsPort l code _
    · exact (s.putGuard_keepsPort l code _).trans (State.closePassing_keepsPort _ l code _ _)
  · exact s.putGuard_keepsPort l code _

theorem State.assemble_keepsPort (s : State) (l : LinkNo) (code t x : Nat) : KeepsPort s (s.assemble l code t x) := by
  unfold State.assemble
  split
  · exact s.setLoopFlag_keepsPort l _
  · split
    · exact (s.setLoopFlag_keepsPort l _).trans (State.tableHit_keepsPort _ l code t x)
    · exact s.tableHit_keepsPort l code t x

theorem State.acceptHit_keepsPort (s : State) (l : LinkNo) (code t x : Nat) : KeepsPort s (s.acceptHit l code t x) := by
  unfold State.acceptHit
  split
  · exact s.setLoopFlag_keepsPort l _
  · split
    · exact s.setLoopFlag_keepsPort l _
    · exact State.assemble_keepsPort _ l code t x

/-- Settles O17. -/
theorem reportsDiscarded : Obligations.ReportsDiscarded := by
  intro s l c m o x hs hk
  refine ⟨fun hn => ?_, fun hn hoff => ?_, fun hh => ⟨⟨_, rfl, ?_⟩, _, exec_hit_of_hears hk hh c m o x, ?_, ?_⟩⟩
  · refine ⟨?_, ?_, ?_, ?_⟩ <;> exact congrArg Host.Outcome.next (State.takeReport_of_lost hn _)
  · refine ⟨?_, ?_, ?_, ?_⟩ <;> exact congrArg Host.Outcome.next (State.takeReport_of_off hn hoff _)
  · refine State.takeReport_linkEvent hs.2 hh ?_
    rw [State.corruptReport_eq, State.link_setLink_self]
  · refine KeepsPort.trans ?_ (closeEvent_keepsPort _ _)
    split
    · split
      · exact ⟨rfl, rfl, rfl, rfl, rfl⟩
      · exact KeepsPort.trans ⟨rfl, rfl, rfl, rfl, rfl⟩ (State.acceptHit_keepsPort _ l _ _ _)
    · exact ⟨rfl, rfl, rfl, rfl, rfl⟩
  · refine ⟨fun hv => ?_, fun hv hold => ?_, fun hv hnew => ⟨fun hlate => ?_, fun hpast ⟨u, hu, hlt⟩ => ?_⟩⟩
    · exact State.closeEvent_linkEvent hs (if_neg hv)
    · exact State.closeEvent_linkEvent hs (by rw [if_pos hv, if_pos hold])
    · refine State.closeEvent_linkEvent hs ?_
      rw [if_pos hv, hnew, if_neg Bool.false_ne_true, State.acceptHit_withLink, if_pos hlate]
    · refine State.closeEvent_linkEvent hs ?_
      have hany : (((s.link l).heard s.now).afterValid s.now).latestHit.any (fun u =>
          decide (hitInstant ((s.link l).heard s.now) s.time.mark m.toNat o.toNat < u)) = true := by
        rw [Link.afterValid_latestHit, Option.mem_def.1 hu]
        exact decide_eq_true hlt
      rw [if_pos hv, hnew, if_neg Bool.false_ne_true, State.acceptHit_withLink, if_neg (Nat.not_lt.2 hpast), if_pos hany]

end Sys2Proof.Machine
end

section
/-! Accepted hits and passings that close: the statements (R2, R31, R37 to R47). -/

namespace Sys2Proof.Machine

/-- A received HIT with its fields in range that is not too old, not ahead of circuit time, and at the time `t`, in order
after the hits before it (R27, R30, R31). -/
structure HitAccepted (s : State) (l : LinkNo) (c : BitVec 24) (m : BitVec 8) (o : BitVec 16) (t : Nat) : Prop where
  settled : s.settled
  legal : (s.link l).legal
  hears : (s.link l).hears
  fields : 1 ≤ c.toNat ∧ c.toNat ≤ 16777214 ∧ o.toNat ≤ 9999
  fresh : tooOld (s.link l) s.time.mark m.toNat = false
  time : hitInstant (s.link l) s.time.mark m.toNat o.toNat = t
  past : t ≤ s.now
  latest : ∀ u ∈ (s.link l).latestHit, u ≤ t

/-- A link with a hit accepted on it, as the assembler finds it. -/
def Link.hitAt (k : Link) (now t : Nat) : Link := { (k.heard now).afterValid now with latestHit := some t }

section Hit

variable (k : Link) (now t : Nat)

@[simp] theorem Link.hitAt_settings : (k.hitAt now t).settings = k.settings := Link.afterValid_settings ..
@[simp] theorem Link.hitAt_passings : (k.hitAt now t).passings = k.passings := Link.afterValid_passings ..

end Hit

/-- An accepted hit goes to the assembler as the link's latest (R31). -/
theorem HitAccepted.exec {s : State} {l : LinkNo} {c : BitVec 24} {m : BitVec 8} {o : BitVec 16} {t : Nat}
    (h : HitAccepted s l c m o t) (x : BitVec 8) :
    exec (.hit l c m o x) s = .next (closeEvent s
      ((s.withLink l ((s.link l).hitAt s.now t) (s.link l).validFlags).assemble l c.toNat t x.toNat)) := by
  have hany : ¬ (((s.link l).heard s.now).afterValid s.now).latestHit.any (fun u => decide (t < u)) = true := by
    rw [Link.afterValid_latestHit]
    intro hlate
    obtain ⟨u, hu, hlt⟩ := (Option.any_eq_true _ _).1 hlate
    exact Nat.not_lt.2 (h.latest u hu) (of_decide_eq_true hlt)
  have hfresh : tooOld ((s.link l).heard s.now) s.time.mark m.toNat = false := h.fresh
  have htime : hitInstant ((s.link l).heard s.now) s.time.mark m.toNat o.toNat = t := h.time
  rw [exec_hit_of_hears h.legal h.hears, if_pos h.fields, hfresh, if_neg Bool.false_ne_true, htime,
    State.acceptHit_withLink, if_neg (Nat.not_lt.2 h.past), if_neg hany]
  rfl

/-- The flags a hit of a strength at or above the threshold sets beside those of its report (R27, R37). -/
def Link.hitFlags (k : Link) (x : Nat) : List LoopFlag :=
  k.validFlags ++ if decide (k.settings.saturation ≤ x) then [.strong] else []

/-- A hit below the threshold goes no further (R37). -/
theorem State.assemble_weak {s : State} {l : LinkNo} {t x : Nat} (hx : x < (s.link l).settings.threshold)
    (code : Nat) :
    (s.withLink l ((s.link l).hitAt s.now t) (s.link l).validFlags).assemble l code t x =
      s.withLink l ((s.link l).hitAt s.now t) ((s.link l).validFlags ++ [.weak]) := by
  rw [State.assemble_withLink, Link.hitAt_settings, if_pos hx]

/-- Another hit goes to the table (R37). -/
theorem State.assemble_heavy {s : State} {l : LinkNo} {t x : Nat} (hx : (s.link l).settings.threshold ≤ x)
    (code : Nat) :
    (s.withLink l ((s.link l).hitAt s.now t) (s.link l).validFlags).assemble l code t x =
      (s.withLink l ((s.link l).hitAt s.now t) ((s.link l).hitFlags x)).tableHit l code t x := by
  rw [State.assemble_withLink, Link.hitAt_settings, if_neg (Nat.not_lt.2 hx), Link.hitFlags]

/-! ## The hit at the table (R38 to R41) -/

section Table

variable {s : State} {l : LinkNo} {k : Link} {fs : List LoopFlag} {b : LinkSettings} {m : KeyMap Entry} {code t x : Nat}

/-- A table of 16 entries takes no other code (R38). -/
theorem State.tableHit_crowded (hm : k.passings = m) (hf : m.find code = none) (hfull : m.length = 16) :
    (s.withLink l k fs).tableHit l code t x = s.withLink l k (fs ++ [.crowded]) := by
  subst hm
  rw [s.tableHit_of_none l fs hf, if_neg (by omega)]

/-- A code without an entry opens a passing (R38). -/
theorem State.tableHit_opens (hb : k.settings = b) (hm : k.passings = m) (hf : m.find code = none)
    (hroom : m.length < 16) :
    (s.withLink l k fs).tableHit l code t x = (s.withLink l k fs).putPassing l code (OpenPassing.opened b t x) := by
  subst hb hm
  rw [s.tableHit_of_none l fs hf, if_pos hroom]

/-- A hit within the maximum dwell joins the passing of its code (R39). -/
theorem State.tableHit_joins (hb : k.settings = b) (hm : k.passings = m) {p : OpenPassing}
    (hf : m.find code = some (.passing p)) (hdwell : t ≤ p.first + b.maxDwell * 1000) :
    (s.withLink l k fs).tableHit l code t x = (s.withLink l k fs).putPassing l code (p.joined b t x) := by
  subst hb hm
  rw [s.tableHit_of_passing l fs hf]
  exact if_pos hdwell

/-- What a later hit does with the passing of its code: it stalls, with too few hits or with enough (R40, R42). -/
theorem State.tableHit_stalls (hb : k.settings = b) (hm : k.passings = m) (hw : m.wf) {p : OpenPassing}
    (hf : m.find code = some (.passing p)) (hdwell : p.first + b.maxDwell * 1000 < t) :
    (p.count < b.minHits → (s.withLink l k fs).tableHit l code t x =
      s.withLink l { k with passings := k.guarded code (guardAt b t) s.now } (fs ++ [.sparse])) ∧
    (b.minHits ≤ p.count → (s.withLink l k fs).tableHit l code t x =
      (s.withLink l { k with passings := k.guarded code (guardAt b t) s.now } fs).handOn l code p.time .stalled) := by
  subst hb hm
  have hstalls := (s.tableHit_of_passing l fs hf t x).trans (if_neg (Nat.not_le.2 hdwell))
  rw [hstalls, s.putGuard_withLink l k fs hw, State.closePassing_withLink]
  exact ⟨fun hfew => if_pos hfew, fun hmany => if_neg (Nat.not_lt.2 hmany)⟩

/-- A GUARD entry absorbs a hit of its code (R41). -/
theorem State.tableHit_absorbs (hb : k.settings = b) (hm : k.passings = m) (hw : m.wf) {g : GuardEntry}
    (hf : m.find code = some (.guard g)) :
    (s.withLink l k fs).tableHit l code t x =
      s.withLink l { k with passings := k.guarded code (guardAt b t) s.now } fs := by
  subst hb hm
  rw [s.tableHit_of_guard l fs hf, s.putGuard_withLink l k fs hw]

/-- A passing whose close expiry lies ahead stays in the table (R38, R39). -/
theorem State.putPassing_stays (hm : k.passings = m) (hw : m.wf) {p : OpenPassing} (he : s.now < p.expiry) :
    (s.withLink l k fs).putPassing l code p =
      s.withLink l { k with passings := m.put code (.passing p) } fs := by
  subst hm
  rw [s.putPassing_withLink l k fs hw, if_neg (Nat.not_le.2 he)]

/-- A passing whose close expiry is already reached leaves the table and closes, with too few hits or with enough (R2,
R42). -/
theorem State.putPassing_closes (hb : k.settings = b) (hm : k.passings = m) (hw : m.wf) {p : OpenPassing}
    (he : p.expiry ≤ s.now) :
    (p.count < b.minHits → (s.withLink l k fs).putPassing l code p =
      s.withLink l { k with passings := m.remove code } (fs ++ [.sparse])) ∧
    (b.minHits ≤ p.count → (s.withLink l k fs).putPassing l code p =
      (s.withLink l { k with passings := m.remove code } fs).handOn l code p.time p.quality) := by
  subst hb hm
  rw [s.putPassing_withLink l k fs hw, if_pos he, State.closePassing_withLink]
  exact ⟨fun hfew => if_pos hfew, fun hmany => if_neg (Nat.not_lt.2 hmany)⟩

end Table

theorem State.withLink_keepsPort (s : State) (l : LinkNo) (k : Link) (fs : List LoopFlag) :
    KeepsPort s (s.withLink l k fs) := ⟨rfl, rfl, rfl, rfl, rfl⟩

/-- A passing opened by one hit is at that hit (R43). -/
theorem OpenPassing.opened_time (b : LinkSettings) (t x : Nat) : (OpenPassing.opened b t x).time = t := by
  have hweight : 1 ≤ hitWeight b x := Nat.le_add_left ..
  have hhalf : (0 + hitWeight b x / 2) / hitWeight b x = 0 := Nat.div_eq_of_lt (by omega)
  exact congrArg (t + ·) hhalf

theorem Link.guarded_of_passings {k : Link} {m : KeyMap Entry} (h : k.passings = m) (code : Nat) (g : GuardEntry)
    (now : Nat) :
    k.guarded code g now = if g.expiry ≤ now then m.remove code else m.put code (.guard g) := by
  rw [Link.guarded, h]

/-- Settles O18: the hit at the table, by the entry its code has there. -/
theorem hitTaken : Obligations.HitTaken := by
  intro s l c m o x hs hk hh hc hc' ho hnew k at' v expiry strong fs weight absorbed hpast hlatest
  have haccepted : HitAccepted s l c m o at' := ⟨hs, hk, hh, ⟨hc, hc', ho⟩, hnew, rfl, hpast, hlatest⟩
  have hw : (s.link l).passings.wf := hk.2.2.2.2.2.2.2.2.1
  have hb : ((s.link l).hitAt s.now at').settings = (s.link l).settings := Link.hitAt_settings ..
  have hm : ((s.link l).hitAt s.now at').passings = (s.link l).passings := Link.hitAt_passings ..
  refine ⟨_, haccepted.exec x, ?_, fun hweak => ?_, fun hheavy => ?_⟩
  · exact ((s.withLink_keepsPort l _ _).trans (State.assemble_keepsPort _ l _ _ _)).trans (closeEvent_keepsPort s _)
  · exact State.closeEvent_linkEvent hs (State.assemble_weak hweak _)
  · rw [State.assemble_heavy hheavy]
    refine ⟨fun hf hfull => ?_, fun hf hroom he => ?_, fun p hf => ⟨fun hdwell he => ?_, fun hdwell hfew => ?_⟩,
      fun g hf => ?_⟩
    · exact State.closeEvent_linkEvent hs (State.tableHit_crowded hm hf hfull)
    · exact State.closeEvent_linkEvent hs
        ((State.tableHit_opens hb hm hf hroom).trans (State.putPassing_stays hm hw he))
    · exact State.closeEvent_linkEvent hs
        ((State.tableHit_joins hb hm hf hdwell).trans (State.putPassing_stays hm hw he))
    · refine State.closeEvent_linkEvent hs ?_
      rw [(State.tableHit_stalls hb hm hw hf hdwell).1 hfew, Link.guarded_of_passings hm]
      rfl
    · refine State.closeEvent_linkEvent hs ?_
      rw [State.tableHit_absorbs hb hm hw hf, Link.guarded_of_passings hm]
      rfl

/-- Settles O25: the same cases where the passing closes. -/
theorem hitsThatClose : Obligations.HitsThatClose := by
  intro s l c m o x hs hk hh hc hc' ho hnew hheavy k at' v expiry strong fs weight gone absorbed hpast hlatest
  have haccepted : HitAccepted s l c m o at' := ⟨hs, hk, hh, ⟨hc, hc', ho⟩, hnew, rfl, hpast, hlatest⟩
  have hw : (s.link l).passings.wf := hk.2.2.2.2.2.2.2.2.1
  have hb : ((s.link l).hitAt s.now at').settings = (s.link l).settings := Link.hitAt_settings ..
  have hm : ((s.link l).hitAt s.now at').passings = (s.link l).passings := Link.hitAt_passings ..
  rw [haccepted.exec x, State.assemble_heavy hheavy]
  refine ⟨fun hf hroom he => ?_, fun p hf => ⟨fun hdwell hmany => ?_, fun hdwell he => ?_⟩⟩
  · have hremove : (s.link l).passings.remove c.toNat = ((s.link l).hitAt s.now at').passings :=
      (KeyMap.remove_of_find_none hf).trans hm.symm
    obtain ⟨hsparse, hhandsOn⟩ := State.putPassing_closes (s := s) (l := l) (fs := (s.link l).hitFlags x.toNat)
      (code := c.toNat) hb hm hw (p := .opened (s.link l).settings at' x.toNat) he
    rw [hremove] at hsparse hhandsOn
    rw [State.tableHit_opens hb hm hf hroom]
    refine ⟨fun hfew => ⟨_, rfl, State.closeEvent_linkEvent hs (hsparse hfew)⟩, fun hmany => ?_⟩
    rw [hhandsOn hmany, OpenPassing.opened_time]
    rfl
  · rw [(State.tableHit_stalls hb hm hw hf hdwell).2 hmany, Link.guarded_of_passings hm]
    rfl
  · obtain ⟨hsparse, hhandsOn⟩ := State.putPassing_closes (s := s) (l := l) (fs := (s.link l).hitFlags x.toNat)
      (code := c.toNat) hb hm hw (p := p.joined (s.link l).settings at' x.toNat) he
    rw [State.tableHit_joins hb hm hf hdwell]
    refine ⟨fun hfew => ⟨_, rfl, State.closeEvent_linkEvent hs (hsparse hfew)⟩, fun hmany => ?_⟩
    rw [hhandsOn hmany]
    rfl

/-! ## The expiries of entries (R42, R43, R47) -/

/-- The centroid is the nearest microsecond, halves up (R43). -/
theorem OpenPassing.time_bounds {p : OpenPassing} (hw : 1 ≤ p.weight) :
    2 * p.weight * (p.time - p.first) ≤ 2 * p.moment + p.weight ∧
    2 * p.moment + p.weight < 2 * p.weight * (p.time - p.first + 1) := by
  have hshift : p.time - p.first = (p.moment + p.weight / 2) / p.weight := Nat.add_sub_cancel_left ..
  have hlow : p.weight * ((p.moment + p.weight / 2) / p.weight) ≤ p.moment + p.weight / 2 := Nat.mul_div_le _ _
  have hhigh : p.moment + p.weight / 2 < p.weight * ((p.moment + p.weight / 2) / p.weight + 1) :=
    Nat.lt_mul_div_succ _ hw
  rw [hshift, Nat.mul_assoc, Nat.mul_assoc]
  omega

/-- The centroid lies between the first hit and the last (R43). -/
theorem OpenPassing.time_within {p : OpenPassing} {latest : Option Nat} (h : p.legal latest) :
    p.first ≤ p.time ∧ p.time ≤ p.last := by
  obtain ⟨hspan, -, -, hweight, hmoment, -⟩ := h
  have hlt : (p.moment + p.weight / 2) / p.weight < p.last - p.first + 1 := by
    rw [Nat.div_lt_iff_lt_mul hweight, Nat.add_mul, Nat.one_mul, Nat.mul_comm]
    omega
  refine ⟨Nat.le_add_right .., ?_⟩
  rw [OpenPassing.time]
  omega

theorem State.setPassings_eq_withLink (s : State) (l : LinkNo) (m : KeyMap Entry) :
    s.setPassings l m = s.withLink l { s.link l with passings := m } [] := s.setLink_eq_withLink l rfl

/-- CLOSE_EXPIRY of a due passing takes its entry out; with too few hits it is SPARSE (R42). -/
theorem exec_closeExpiry_of_due {s : State} {l : LinkNo} {code : Nat} {p : OpenPassing}
    (hf : (s.link l).passings.find code = some (.passing p)) (he : p.expiry ≤ s.now) :
    exec (.closeExpiry l code) s = .next (closeEvent s
      (if p.count < (s.link l).settings.minHits then
        s.withLink l { s.link l with passings := (s.link l).passings.remove code } [.sparse]
      else (s.withLink l { s.link l with passings := (s.link l).passings.remove code } []).handOn l code p.time
        p.quality)) := by
  have hclose : s.closeExpiry l code = closeEvent s (s.closeNow l code p) := by
    simp only [State.closeExpiry, hf, if_pos he]
  refine congrArg Host.Outcome.next (hclose.trans ?_)
  rw [State.closeNow, State.setPassings_eq_withLink, State.closePassing_withLink]
  rfl

/-- With hits enough it is handed on (R42 to R45). -/
theorem exec_closeExpiry_handsOn {s : State} {l : LinkNo} {code : Nat} {p : OpenPassing} (h : PassingDue s l code p) :
    exec (.closeExpiry l code) s = .next (closeEvent s
      ((s.withLink l { s.link l with passings := (s.link l).passings.remove code } []).handOn l code p.time p.quality)) := by
  obtain ⟨hf, he, hmany⟩ := h
  rw [exec_closeExpiry_of_due hf he, if_neg (Nat.not_lt.2 hmany)]

/-- A legal reporting unit keeps its latch where no cause moved (R163). -/
theorem LatchFollows.of_legal {s t : State} (h : s.report.legal) (hc : t.report.causes = s.report.causes)
    (hm : t.report.moderationExpiry = s.report.moderationExpiry) (hl : t.report.latch = s.report.latch) :
    LatchFollows s t := by
  obtain ⟨-, -, hlatch, hpending, -⟩ := h
  unfold LatchFollows
  rw [hc, hm, hl]
  by_cases h0 : s.report.causes = 0#6
  · rw [if_pos h0]
    exact Bool.eq_false_iff.2 fun hset => hlatch hset h0
  · rw [if_neg h0]
    split
    · exact hpending h0 ‹_›
    · rfl

/-- An event on one link that sets no flag and ends there is a link event (R163). -/
theorem State.withLink_linkEvent_of_legal {s : State} (h : s.report.legal) (l : LinkNo) (k : Link) :
    LinkEvent s (s.withLink l k []) l k [] :=
  ⟨rfl, fun _ hj => s.link_withLink_ne l [] hj, s.link_withLink_self l [], rfl, ⟨rfl, rfl, rfl⟩, ⟨rfl, rfl⟩,
    rfl, fun c => by simp [State.withLink, loopsRaised], .of_legal h rfl rfl rfl, rfl, rfl⟩

/-- Settles O26. -/
theorem passingCloses : Obligations.PassingCloses := by
  refine ⟨fun s l code hs => ⟨fun p hf he => ?_, fun g hf he => ?_⟩, fun p latest hp => ?_⟩
  · refine ⟨_, exec_closeExpiry_of_due hf he, KeepsPort.trans ?_ (closeEvent_keepsPort s _), fun hfew => ?_,
      fun hmany hrolling => ?_, fun hmany => ?_⟩
    · split
      · exact s.withLink_keepsPort l _ _
      · exact (s.withLink_keepsPort l _ _).trans (RacePart.handOn _ l code _ _).port
    · exact State.closeEvent_linkEvent hs (if_pos hfew)
    · refine State.closeEvent_linkEvent hs ((if_neg (Nat.not_lt.2 hmany)).trans ?_)
      exact if_pos hrolling
    · rw [if_neg (Nat.not_lt.2 hmany), OpenPassing.quality]
  · have hremove : s.guardRemoval l code = s.removeGuard l code := by
      simp only [State.guardRemoval, hf, if_pos he]
    refine ⟨_, congrArg Host.Outcome.next (hremove.trans (s.setPassings_eq_withLink l _)), ⟨rfl, rfl, rfl, rfl, rfl⟩,
      State.withLink_linkEvent_of_legal hs.2 l _⟩
  · obtain ⟨hfirst, hlast⟩ := OpenPassing.time_within hp
    exact ⟨hfirst, hlast, OpenPassing.time_bounds hp.2.2.2.1⟩

end Sys2Proof.Machine
end

section
/-! The keys of the order list (R116 to R118) and the lead table (R123, R124). -/

namespace Sys2Proof.Machine

/-! ## The lead table (R123, R124) -/

theorem raiseHighest_eq (h : Option Nat) (c : Nat) : raiseHighest h c = some (max c (h.getD 0)) := by
  cases h with
  | none => simp [raiseHighest]
  | some n =>
    simp only [raiseHighest, Option.getD_some]
    split <;> congr 1 <;> omega

theorem OrderBlock.take_of_point {o : OrderBlock} {lines c t : Nat} {p : LeadPoint}
    (h : (o.outcome lines c t).point = some p) :
    o.take lines c t =
      { o with lead := o.lead.put (c % 128) p, highest := (o.outcome lines c t).highest } := by
  simp only [OrderBlock.take, h]

theorem OrderBlock.take_of_stays {o : OrderBlock} {lines c t : Nat} (h : (o.outcome lines c t).point = none) :
    o.take lines c t = o := by
  simp only [OrderBlock.take, h]

theorem OrderBlock.take_list (o : OrderBlock) (lines c t : Nat) : (o.take lines c t).list = o.list := by
  unfold OrderBlock.take
  dsimp only
  split <;> rfl

theorem OrderBlock.take_wf {o : OrderBlock} (h : o.lead.wf) (lines c t : Nat) : (o.take lines c t).lead.wf := by
  unfold OrderBlock.take
  dsimp only
  split
  · exact KeyMap.wf_put h _ _
  · exact h

/-- A crossing writes no entry but its own (R123). -/
theorem OrderBlock.take_find_ne (o : OrderBlock) (lines : Nat) {c i : Nat} (t : Nat) (h : i ≠ c % 128) :
    (o.take lines c t).lead.find i = o.lead.find i := by
  unfold OrderBlock.take
  dsimp only
  split
  · exact KeyMap.find_put_ne _ _ h
  · rfl

/-- Settles O44: the four rows of R124, by the entry the crossing finds. -/
theorem leadTable : Obligations.LeadTable := by
  intro o lines c t hw _
  have htakes : ∀ {highest : Option Nat}, o.outcome lines c t =
      { point := some { index := c, time := t }, highest := highest, gap := .time 0 } →
      ((o.take lines c t).lead.find (c % 128) = some { index := c, time := t } ∧ (o.outcome lines c t).gap = .time 0) ∧
        (o.take lines c t).highest = highest := by
    intro highest h
    rw [OrderBlock.take_of_point (congrArg LeadResult.point h), h]
    exact ⟨⟨KeyMap.find_put_self .., rfl⟩, rfl⟩
  refine ⟨o.take_list lines c t, OrderBlock.take_wf hw lines c t, fun i hi => o.take_find_ne lines t hi,
    fun hf => htakes ?_, fun e hf => ⟨fun hlt => htakes ?_, fun he hle => ?_, fun he hlt => htakes ?_, fun hlt => ?_⟩⟩
  all_goals have hout : o.outcome lines c t = leadOutcome (o.lead.find (c % 128)) o.highest lines c t := rfl
  all_goals rw [hf] at hout
  · rw [hout, leadOutcome, raiseHighest_eq]
  · rw [hout, leadOutcome, if_pos hlt, raiseHighest_eq]
  · have hstays : o.outcome lines c t = { point := none, highest := o.highest, gap := .time (t - e.time) } := by
      rw [hout, leadOutcome, if_neg (by omega), if_pos he, if_pos hle]
    exact ⟨OrderBlock.take_of_stays (congrArg LeadResult.point hstays), congrArg LeadResult.gap hstays⟩
  · rw [hout, leadOutcome, if_neg (by omega), if_pos he, if_neg (by omega)]
  · have hstays : o.outcome lines c t =
        { point := none, highest := o.highest, gap := .lapsDown ((o.highest.getD 0 - c) / lines) } := by
      rw [hout, leadOutcome, if_neg (by omega), if_neg (by omega)]
    exact ⟨OrderBlock.take_of_stays (congrArg LeadResult.point hstays), congrArg LeadResult.gap hstays⟩

/-! ## The order of keys (R117, R118) -/

theorem lexLe_total (xs ys : List Int) : lexLe xs ys = true ∨ lexLe ys xs = true := by
  induction xs generalizing ys with
  | nil => exact .inl rfl
  | cons x xs ih =>
    cases ys with
    | nil => exact .inr rfl
    | cons y ys =>
      simp only [lexLe, Bool.or_eq_true, Bool.and_eq_true, decide_eq_true_eq]
      rcases Int.lt_trichotomy x y with h | h | h
      · exact .inl (.inl h)
      · exact (ih ys).imp (fun hle => .inr ⟨h, hle⟩) fun hle => .inr ⟨h.symm, hle⟩
      · exact .inr (.inl h)

theorem lexLe_trans {xs ys zs : List Int} (h : lexLe xs ys = true) (k : lexLe ys zs = true) : lexLe xs zs = true := by
  induction xs generalizing ys zs with
  | nil => rfl
  | cons x xs ih =>
    cases ys with
    | nil => exact nomatch h
    | cons y ys =>
      cases zs with
      | nil => exact nomatch k
      | cons z zs =>
        simp only [lexLe, Bool.or_eq_true, Bool.and_eq_true, decide_eq_true_eq] at h k ⊢
        rcases h with h | ⟨rfl, h⟩
        · exact .inl (k.elim (fun hk => h.trans hk) fun hk => hk.1 ▸ h)
        · exact k.imp_right fun hk => ⟨hk.1, ih h hk.2⟩

/-- The entries of the list are in the order of their keys (R116). -/
theorem orderEntries_sorted (ty : SessionType) (m : KeyMap Record) :
    ((orderEntries ty m).insertionSort fun a b => lexLe a.1 b.1 = true).Pairwise fun a b => lexLe a.1 b.1 = true := by
  have htotal : Std.Total fun a b : List Int × Nat => lexLe a.1 b.1 = true := ⟨fun a b => lexLe_total a.1 b.1⟩
  have htrans : IsTrans _ fun a b : List Int × Nat => lexLe a.1 b.1 = true := ⟨fun _ _ _ => lexLe_trans⟩
  exact List.pairwise_insertionSort _ _

theorem mem_orderEntries {ty : SessionType} {m : KeyMap Record} {e : List Int × Nat} :
    e ∈ orderEntries ty m ↔ ∃ p ∈ m, stateInOrder p.2.state = true ∧ e = (p.2.orderKey ty p.1, p.1) := by
  simp only [orderEntries, List.mem_map, List.mem_filter, and_assoc, eq_comm]

/-- The list holds the slots of the records that are in the running order, and no other (R116). -/
theorem mem_orderOf {ty : SessionType} {m : KeyMap Record} (hw : m.wf) {n : Nat} :
    n ∈ orderOf ty m ↔ ∃ r, m.find n = some r ∧ stateInOrder r.state = true := by
  simp only [orderOf, List.mem_map, List.mem_insertionSort, mem_orderEntries]
  constructor
  · rintro ⟨-, ⟨⟨k, r⟩, hp, hstate, rfl⟩, rfl⟩
    exact ⟨r, KeyMap.find_of_mem hw hp, hstate⟩
  · rintro ⟨r, hr, hstate⟩
    exact ⟨_, ⟨(n, r), KeyMap.find_mem hr, hstate, rfl⟩, rfl⟩

theorem orderOf_nodup {ty : SessionType} {m : KeyMap Record} (hw : m.wf) : (orderOf ty m).Nodup := by
  have hslots : ((orderEntries ty m).map (·.2)).Nodup := by
    have hkeys : (m.map Prod.fst).Nodup := hw.imp Nat.ne_of_lt
    have hsub : ((orderEntries ty m).map (·.2)).Sublist (m.map Prod.fst) := by
      rw [orderEntries, List.map_map]
      exact (List.filter_sublist (l := m)).map Prod.fst
    exact hsub.nodup hkeys
  exact ((List.perm_insertionSort _ _).map _).nodup_iff.2 hslots

theorem Record.progress_eq_round (r : Record) : r.progress = r.round := by
  unfold Record.progress Record.round
  cases r.started with
  | false => rfl
  | true => cases r.lastPos <;> rfl

theorem Record.keyTime_eq_raceTime (r : Record) : r.keyTime = r.raceTime := by
  unfold Record.keyTime Record.raceTime
  cases r.state with
  | finished => cases r.finish <;> rfl
  | enrolled | running | pit | retired | excluded => rfl

/-- Of two records in different slots the one with the lower key is ahead (R117, R118). -/
theorem aheadUnder_of_lexLe {ty : SessionType} {a b : Record} {n m : Nat} (hne : n ≠ m)
    (h : lexLe (a.orderKey ty n) (b.orderKey ty m) = true) : aheadUnder ty a n b m := by
  have hrace : lexLe (a.raceKey n) (b.raceKey m) = true → aheadInRace a n b m := by
    intro h
    simp only [Record.raceKey, lexLe, Bool.or_eq_true, Bool.and_eq_true, decide_eq_true_eq,
      Record.progress_eq_round, Record.keyTime_eq_raceTime] at h
    unfold aheadInRace
    omega
  have hbest : lexLe (a.bestKey n) (b.bestKey m) = true → aheadOnBest a n b m := by
    intro h
    unfold Record.bestKey at h
    unfold aheadOnBest
    cases ha : a.bestLap <;> cases hb : b.bestLap <;>
      simp only [ha, hb, lexLe, Bool.or_eq_true, Bool.and_eq_true, decide_eq_true_eq] at h ⊢ <;> omega
  cases ty with
  | race => exact hrace h
  | practice | qualifying => exact hbest h

/-- Settles O45. -/
theorem orderSorted : Obligations.OrderSorted := by
  intro s hw
  refine ⟨orderOf_nodup hw, fun n => ?_, ?_⟩
  · rw [mem_orderOf hw]
    simp [stateInOrder, State.record?, or_assoc]
  · have hslots := orderOf_nodup (ty := s.keyType) hw
    rw [orderOf, List.Nodup, List.pairwise_map] at hslots
    rw [orderOf, List.pairwise_map]
    refine ((orderEntries_sorted s.keyType s.table.records).and hslots).imp_of_mem ?_
    rintro x y hx hy ⟨hle, hne⟩
    rw [List.mem_insertionSort, mem_orderEntries] at hx hy
    obtain ⟨⟨n, a⟩, ha, -, rfl⟩ := hx
    obtain ⟨⟨m, b⟩, hb, -, rfl⟩ := hy
    exact ⟨a, b, KeyMap.find_of_mem hw ha, KeyMap.find_of_mem hw hb, aheadUnder_of_lexLe hne hle⟩

end Sys2Proof.Machine
end

section
/-! What an event leaves that changes records: the order list and the reporting unit at its end (R57, R74, R116, R120,
R121, R132, R161, R163), and the requests that are taken (R156, R157). -/

namespace Sys2Proof.Machine

/-! ## Records and their places -/

theorem placeFrom_isSome_iff (k slot : Nat) (list : List Nat) : (placeFrom k slot list).isSome = true ↔ slot ∈ list := by
  induction list generalizing k with
  | nil => simp [placeFrom]
  | cons x xs ih =>
    simp only [placeFrom, List.mem_cons]
    split
    · rename_i hx
      simp [hx]
    · rename_i hx
      rw [ih]
      simp [Ne.symm hx]

theorem placeOf_isSome_iff (slot : Nat) (list : List Nat) : (placeOf list slot).isSome = true ↔ slot ∈ list :=
  placeFrom_isSome_iff 1 slot list

/-- Where list and positions agree, a record has a place exactly while its state is one of the order (R57, R116). -/
theorem State.orderAgrees.position_isSome {s : State} (h : s.orderAgrees) (hw : s.table.records.wf) {n : Nat} {r : Record}
    (hr : s.record? n = some r) : r.position.isSome = true ↔ stateInOrder r.state = true := by
  obtain ⟨hlist, hplaces⟩ := h
  obtain ⟨hplace, -⟩ := hplaces (n, r) (KeyMap.find_mem hr)
  rw [show r.position = _ from hplace, placeOf_isSome_iff, hlist, mem_orderOf hw]
  constructor
  · rintro ⟨x, hx, hstate⟩
    rwa [Option.some.inj (hr.symm.trans hx)]
  · exact fun hstate => ⟨r, hr, hstate⟩

/-- A record that only changed its place is the record there was, where that had the same position and gap, or the
same position and a place. -/
theorem OnlyPlaced.eq_of_eq {r r' x : Record} (h : OnlyPlaced r' x) (hx : x = r) (hplace : r'.position = r.position)
    (hgap : r'.gap = r.gap ∨ x.position.isSome = true) : r' = r := by
  subst hx
  obtain ⟨he, hkept, -⟩ := h
  have hgap' : x.gap = r'.gap := hgap.elim Eq.symm hkept
  rw [if_pos hplace.symm, hgap', ← hplace] at he
  exact he.symm

/-! ## What an event that changes records leaves for its end -/

/-- Each slot whose record changed, and no other, has joined the changed-slot set, the causes named are raised, and the
places in the order are still the ones before. -/
structure Recorded (s u : State) (raised : List Cause) : Prop where
  changed : ∀ n, n ∈ u.report.changed ↔ n ∈ s.report.changed ∨ u.record? n ≠ s.record? n
  causes : RaisesOnly s u raised
  latch : u.report.latch = s.report.latch
  timer : KeepsTimer s u
  wf : u.table.records.wf
  list : u.order.list = s.order.list
  places : ∀ n r, u.record? n = some r → r.position = placeOf s.order.list n
  gaps : ∀ n r r', s.record? n = some r → u.record? n = some r' → r'.gap = r.gap ∨ stateInOrder r'.state = true

theorem closeEvent_session (s u : State) : (closeEvent s u).session = u.session := by
  obtain ⟨-, -, -, hsession, -⟩ := closeEvent_blocks s u
  exact hsession

theorem closeEvent_records (s u : State) : (closeEvent s u).table.records = u.reorder.table.records := by
  obtain ⟨-, -, -, -, -, -, htable, -⟩ := closeEvent_blocks s u
  rw [htable]

theorem closeEvent_record? (s u : State) (n : Nat) : (closeEvent s u).record? n = u.reorder.record? n := by
  rw [State.record?, closeEvent_records, State.record?]

/-- A record that changed stays changed as the list is brought to the keys. -/
theorem Recorded.seen {s u : State} {raised : List Cause} (hs : s.settled) (h : Recorded s u raised) (n : Nat)
    (hn : u.record? n ≠ s.record? n) : u.reorder.record? n ≠ s.record? n := by
  intro he
  have hplaced := u.reorder_everyOnlyPlaced n
  have hagrees := u.reorder_agrees
  cases hu : u.record? n with
  | none =>
    cases ht : u.reorder.record? n with
    | none => exact hn (hu.trans (ht.symm.trans he))
    | some x => simp [hu, ht] at hplaced
  | some r' =>
    cases ht : u.reorder.record? n with
    | none => simp [hu, ht] at hplaced
    | some x =>
      simp only [hu, ht] at hplaced
      have hr : s.record? n = some x := he.symm.trans ht
      have hposition : r'.position = x.position :=
        (h.places n r' hu).trans (hs.1.2 (n, x) (KeyMap.find_mem hr)).1.symm
      have hstate : x.state = r'.state := (congrArg Record.state hplaced.1 :)
      have hgap : r'.gap = x.gap ∨ x.position.isSome = true := by
        refine (h.gaps n x r' hr hu).imp_right fun hin => ?_
        rw [hagrees.position_isSome (by rw [KeyMap.wf, (RaceStep.reorder u).keys h.wf]; exact h.wf) ht, hstate]
        exact hin
      have heq : r' = x := hplaced.eq_of_eq rfl hposition hgap
      exact hn (hu.trans (heq ▸ hr.symm))

/-- At the end of the event the reporting unit is told of the records that changed, of the order and of the session
(R74, R121, R132, R161, R163). -/
theorem Recorded.follows {s u : State} {raised : List Cause} (hs : s.settled) (h : Recorded s u raised)
    (hraised : .records ∉ raised) : Follows s (closeEvent s u) raised := by
  have hrecords := hs.2.1
  have hstep := RaceStep.reorder u
  have hjoined : ∀ n, n ∈ u.reorder.report.changed ↔ n ∈ s.report.changed ∨ u.reorder.record? n ≠ s.record? n := by
    intro n
    rw [State.mem_reorder_changed h.wf, h.changed]
    constructor
    · rintro ((hn | hn) | hn)
      · exact .inl hn
      · exact .inr (h.seen hs n hn)
      · by_cases hu : u.record? n = s.record? n
        · exact .inr (hu ▸ hn)
        · exact .inr (h.seen hs n hu)
    · rintro (hn | hn)
      · exact .inl (.inl hn)
      · by_cases hu : u.record? n = s.record? n
        · exact .inr (by rwa [hu])
        · exact .inl (.inr hu)
  have hcauses : ∀ c, hasCause u.reorder.report.causes c =
      ((hasCause s.report.causes c || decide (c ∈ raised)) ||
        (decide (c = .order) && decide (u.reorder.order.list ≠ s.order.list))) := by
    intro c
    rw [State.hasCause_reorder (fun p hp => ?_), h.causes, h.list]
    rw [h.list]
    exact h.places p.1 p.2 (KeyMap.find_of_mem h.wf hp)
  have hstays : hasCause s.report.causes .records = true → u.reorder.report.changed ≠ [] := fun hpending => by
    obtain ⟨n, hn⟩ := List.exists_mem_of_ne_nil _ (hrecords.1 hpending)
    exact List.ne_nil_of_mem ((hjoined n).2 (.inl hn))
  obtain ⟨causes, latch, he, hafter, hfollows⟩ := closeEvent_eq s u
  rw [he]
  refine ⟨hjoined, fun c => ?_, ?_, hstep.moderation.trans h.timer.1, hstep.moderationExpiry.trans h.timer.2⟩
  · refine (hafter c).trans ?_
    rw [hcauses]
    cases c with
    | records =>
      cases hbefore : hasCause s.report.causes .records with
      | true => simpa using hstays hbefore
      | false =>
        rw [Bool.eq_iff_iff]
        simp [hraised]
    | session => simp [State.sessionItems, State.countIn]
    | order => simp
    | loops | time | unknown => simp
  · unfold LatchFollows
    rw [hfollows, hstep.latch, h.latch]

end Sys2Proof.Machine
end

section
/-! Requests that are taken (R156, R157), and the writes they make of records (R74). -/

namespace Sys2Proof.Machine

/-! ## Records written (R74) -/

theorem Recorded.refl {s : State} (hs : s.settled) (hw : s.table.records.wf) : Recorded s s [] where
  changed n := by simp
  causes c := by simp
  latch := rfl
  timer := ⟨rfl, rfl⟩
  wf := hw
  list := rfl
  places n r hr := (hs.1.2 (n, r) (KeyMap.find_mem hr)).1
  gaps n r r' hr hr' := .inl (by rw [Option.some.inj (hr'.symm.trans hr)])

/-- What an event leaves for its end is in its records, its list and its reporting unit alone. -/
theorem Recorded.of_same {s u v : State} {raised : List Cause} (h : Recorded s u raised)
    (hrecords : v.table.records = u.table.records) (hlist : v.order.list = u.order.list)
    (hnews : KeepsNews u v) (htimer : KeepsTimer u v) : Recorded s v raised := by
  obtain ⟨hchanged, hcauses, hlatch⟩ := hnews
  obtain ⟨hmoderation, hexpiry⟩ := htimer
  have hrec : ∀ n, v.record? n = u.record? n := fun n => by rw [State.record?, hrecords, State.record?]
  constructor
  case changed =>
    intro n
    rw [hchanged, hrec]
    exact h.changed n
  case causes =>
    unfold RaisesOnly
    rw [hcauses]
    exact h.causes
  case latch => exact hlatch.trans h.latch
  case timer => exact ⟨hmoderation.trans h.timer.1, hexpiry.trans h.timer.2⟩
  case wf => rw [hrecords]; exact h.wf
  case list => exact hlist.trans h.list
  case places => exact fun n r hr => h.places n r ((hrec n).symm.trans hr)
  case gaps => exact fun n r r' hr hr' => h.gaps n r r' hr ((hrec n).symm.trans hr')

/-- A record written over another joins the changed-slot set where it differs (R74). -/
theorem Recorded.putRecord {s : State} (hs : s.settled) (hw : s.table.records.wf) {slot : Nat} {r r' : Record}
    (hr : s.record? slot = some r) (hposition : r'.position = r.position)
    (hgap : r'.gap = r.gap ∨ stateInOrder r'.state = true) : Recorded s (s.putRecord slot r') [] := by
  by_cases hsame : r' = r
  · rw [hsame, State.putRecord, if_pos hr]
    exact .refl hs hw
  · have hne : ¬ s.record? slot = some r' := fun h => hsame (Option.some.inj (h.symm.trans hr))
    have hput : s.putRecord slot r' = (s.setRecords (s.table.records.put slot r')).markChanged slot := if_neg hne
    have hself := s.putRecord_record_self slot r'
    have hplace : r.position = placeOf s.order.list slot := (hs.1.2 (slot, r) (KeyMap.find_mem hr)).1
    constructor
    case changed =>
      intro n
      have hmem : n ∈ (s.putRecord slot r').report.changed ↔ n = slot ∨ n ∈ s.report.changed := by
        rw [hput]
        exact mem_joinSlot slot n _
      rw [hmem, or_comm]
      refine or_congr_right ⟨fun hn => ?_, fun hn => ?_⟩
      · rw [hn, hself]
        exact fun h => hne h.symm
      · by_contra hns
        exact hn (s.putRecord_record_ne r' hns)
    case causes => rw [hput]; exact fun c => by simp [State.markChanged, State.setRecords]
    case latch => rw [hput]; rfl
    case timer => rw [hput]; exact ⟨rfl, rfl⟩
    case wf => rw [hput]; exact KeyMap.wf_put hw _ _
    case list => rw [hput]; rfl
    case places =>
      intro n x hx
      by_cases hn : n = slot
      · subst hn
        rw [← Option.some.inj (hself.symm.trans hx), hposition, hplace]
      · rw [s.putRecord_record_ne r' hn] at hx
        exact (hs.1.2 (n, x) (KeyMap.find_mem hx)).1
    case gaps =>
      intro n x x' hx hx'
      by_cases hn : n = slot
      · subst hn
        rw [← Option.some.inj (hself.symm.trans hx'), ← Option.some.inj (hr.symm.trans hx)]
        exact hgap
      · rw [s.putRecord_record_ne r' hn] at hx'
        exact .inl (by rw [Option.some.inj (hx'.symm.trans hx)])

/-! ## The end of an event -/

/-- What the end of an event keeps of the part, and what it does to the records. -/
structure Closes (u t : State) : Prop where
  session : t.session = u.session
  agrees : t.orderAgrees
  index : KeepsIndex u t
  lead : KeepsLead u t
  placed : EveryOnlyPlaced u t

theorem closeEvent_closes (s u : State) : Closes u (closeEvent s u) :=
  ⟨closeEvent_session s u, closeEvent_agrees s u, closeEvent_keepsIndex s u, closeEvent_keepsLead s u,
    closeEvent_everyOnlyPlaced s u⟩

theorem Closes.onlyPlaced {u t : State} (h : Closes u t) {n : Nat} {r : Record} (hr : u.record? n = some r) :
    ∃ x, t.record? n = some x ∧ OnlyPlaced r x := by
  have hn := h.placed n
  cases ht : t.record? n with
  | none => simp [hr, ht] at hn
  | some x =>
    simp only [hr, ht] at hn
    exact ⟨x, rfl, hn⟩

theorem Closes.others {s u t : State} (h : Closes u t) {slot : Nat}
    (hothers : ∀ n, n ≠ slot → u.record? n = s.record? n) : OthersOnlyPlaced s t slot := by
  intro n hn
  rw [← hothers n hn]
  exact h.placed n

theorem Closes.free {u t : State} (h : Closes u t) {n : Nat} (hr : u.record? n = none) : t.record? n = none := by
  have hn := h.placed n
  cases ht : t.record? n with
  | none => rfl
  | some x => simp [hr, ht] at hn

/-- Where the list already agrees with the records the table and the order stay as they are. -/
theorem closeEvent_race_of_agrees {s u : State} (h : u.orderAgrees) :
    (closeEvent s u).table = u.table ∧ (closeEvent s u).order = u.order := by
  obtain ⟨-, -, -, -, -, -, htable, horder⟩ := closeEvent_blocks s u
  rw [htable, horder, State.reorder_of_agrees h]
  exact ⟨rfl, rfl⟩

/-! ## Requests taken -/

section Requests

variable {s u : State} {k : RequestKind} {args b : List Byte} {serve : State → Served} {raised : List Cause}

/-- The part a request leaves, its reply loaded, at the end of the event. -/
def State.answered (s u : State) (k : RequestKind) (b : List Byte) : State :=
  closeEvent s (u.loadReply (some k) .ok b)

theorem State.takeRequest_accepted (hr : s.ready) (ha : args.length ≤ 32)
    (h : serve (s.shiftZeros (args.length + 3)) = accept u b) :
    s.takeRequest k args serve = s.answered u k b := by
  rw [State.takeRequest_taken hr.2 ha, h]
  rfl

theorem State.answered_answers (hport : KeepsPort (s.shiftZeros (args.length + 3)) u) :
    Answers s (s.answered u k b) k args .ok b := by
  obtain ⟨hphase, hbuffer, -, hread, hsdo⟩ := hport
  have hloaded : Answers s (u.loadReply (some k) .ok b) k args .ok b := by
    refine ⟨rfl, rfl, hphase, hsdo, ?_⟩
    simp only [State.loadReply, hbuffer, hread]
    rfl
  exact hloaded.of_keepsPort (closeEvent_keepsPort ..)

theorem State.answered_closes : Closes u (s.answered u k b) := by
  obtain ⟨hsession, hagrees, hindex, hlead, hplaced⟩ := closeEvent_closes s (u.loadReply (some k) .ok b)
  exact ⟨hsession, hagrees, hindex, hlead, hplaced⟩

theorem State.answered_blocks : (s.answered u k b).time = u.time ∧ (s.answered u k b).links = u.links ∧
    (s.answered u k b).circuit = u.circuit ∧ KeepsQueue u (s.answered u k b) := by
  obtain ⟨htime, hlinks, hcircuit, -, hdraws, hpending, -⟩ := closeEvent_blocks s (u.loadReply (some k) .ok b)
  exact ⟨htime, hlinks, hcircuit, hpending, hdraws⟩

theorem State.answered_follows (hs : s.settled) (h : Recorded s u raised) (hraised : .records ∉ raised) :
    Follows s (s.answered u k b) raised :=
  (h.of_same (v := u.loadReply (some k) .ok b) rfl rfl ⟨rfl, rfl, rfl⟩ ⟨rfl, rfl⟩).follows hs hraised

theorem State.answered_race (h : u.orderAgrees) :
    (s.answered u k b).table = u.table ∧ (s.answered u k b).order = u.order :=
  closeEvent_race_of_agrees (s := s) (u := u.loadReply (some k) .ok b) h

/-- A request that writes records is taken. -/
theorem State.answered_takes (hs : s.settled) (htrackside : KeepsTrackside s u) (hqueue : KeepsQueue s u)
    (hport : KeepsPort (s.shiftZeros (args.length + 3)) u) (h : Recorded s u []) :
    Takes s (s.answered u k b) k args b := by
  obtain ⟨htime, hlinks, hcircuit, hpending, hdraws⟩ := State.answered_blocks (s := s) (u := u) (k := k) (b := b)
  obtain ⟨t1, t2, t3⟩ := htrackside
  obtain ⟨q1, q2⟩ := hqueue
  exact ⟨State.answered_answers hport, ⟨htime.trans t1, hlinks.trans t2, hcircuit.trans t3⟩,
    ⟨hpending.trans q1, hdraws.trans q2⟩, State.answered_follows hs h List.not_mem_nil⟩

/-- A request that rewrites one link and sets flags on it is a link event. -/
theorem State.answered_linkEvent (hs : s.settled) {l : LinkNo} {x : Link} {fs : List LoopFlag}
    (hu : u = (s.shiftZeros (args.length + 3)).withLink l x fs) :
    Answers s (s.answered u k b) k args .ok b ∧ LinkEvent s (s.answered u k b) l x fs := by
  subst hu
  have hclosed : s.answered ((s.shiftZeros (args.length + 3)).withLink l x fs) k b =
      (((s.shiftZeros (args.length + 3)).withLink l x fs).loadReply (some k) .ok b).settleAttention :=
    closeEvent_of_race hs.1 rfl rfl rfl
  refine ⟨State.answered_answers ⟨rfl, rfl, rfl, rfl, rfl⟩, ?_⟩
  rw [hclosed]
  refine ⟨rfl, fun j hj => s.link_withLink_ne l fs hj, s.link_withLink_self l fs, rfl, ⟨rfl, rfl, rfl⟩, ⟨rfl, rfl⟩, ?_⟩
  refine State.settleAttention_reports hs.2 (by unfold loopsRaised; split <;> simp) rfl (fun c => ?_) rfl ⟨rfl, rfl⟩
  exact hasCause_loopsRaised s.report.causes (s.link l) fs c

/-- A request that leaves the race and the news alone ends with the latch as it was. -/
theorem State.answered_quiet (hs : s.settled) (hrace : KeepsRace s u) (hnews : KeepsNews s u) (htimer : KeepsTimer s u) :
    KeepsRace s (s.answered u k b) ∧ KeepsNews s (s.answered u k b) ∧ KeepsTimer s (s.answered u k b) := by
  obtain ⟨htable, horder, hsession⟩ := hrace
  obtain ⟨hchanged, hcauses, hlatch⟩ := hnews
  obtain ⟨hmoderation, hexpiry⟩ := htimer
  have hclosed : s.answered u k b = (u.loadReply (some k) .ok b).settleAttention :=
    closeEvent_of_race hs.1 htable horder hsession
  obtain ⟨causes, latch, he, hafter, hfollows⟩ := (u.loadReply (some k) .ok b).report.settle_eq
  have hsettled := State.settleAttention_settlesNews (u.loadReply (some k) .ok b)
  obtain ⟨hchanged', hcauses'⟩ := hsettled.keepsCauses hs.2 hchanged hcauses
  obtain ⟨-, -, hlatch', hmoderation', hexpiry'⟩ := hsettled
  rw [hclosed]
  refine ⟨⟨htable, horder, hsession⟩, ⟨hchanged', hcauses', ?_⟩, hmoderation'.trans hmoderation, hexpiry'.trans hexpiry⟩
  have hsame : LatchFollows s (u.loadReply (some k) .ok b).settleAttention := by
    unfold LatchFollows at hlatch' ⊢
    rw [hlatch']
    show (if _ then _ else if _ then _ else u.report.latch) = _
    rw [hlatch]
  exact hs.2.latch_eq hsame hcauses' (hexpiry'.trans hexpiry)

end Requests

/-- Causes raised by an event that leaves the race alone, as every event tells them. -/
theorem Reports.follows {s t : State} {raised : List Cause} (hl : s.report.legal) (h : Reports s t raised)
    (hrecords : t.table.records = s.table.records) (horder : t.order = s.order) (hsession : t.session = s.session) :
    Follows s t raised := by
  obtain ⟨hchanged, hcauses, hlatch, htimer⟩ := h
  have hitems : t.sessionItems = s.sessionItems := by
    simp only [State.sessionItems, State.countIn, hrecords, hsession]
  refine ⟨fun n => ?_, fun c => ?_, hlatch, htimer⟩
  · rw [hchanged, State.record?, hrecords, ← State.record?]
    simp
  · rw [hcauses, horder, hitems, hchanged]
    cases c with
    | records =>
      have hpending := hl.hasCause_records
      rw [hpending]
      cases s.report.changed <;> simp
    | order | session | loops | time | unknown => simp

end Sys2Proof.Machine
end

section
/-! The requests on links and circuit settings (R16 to R22, R33). -/

namespace Sys2Proof.Machine

/-! ## Requests with arguments -/

section Requests

variable {s : State} {α : Type} {args : List Byte} {parse : List Byte → Option α} {f : State → α → Served} {a : α}

/-- A request whose arguments are read goes to its block with them. -/
theorem State.takeRequest_withArgs (k : RequestKind) (h : parse args = some a) :
    (s.takeRequest k args fun s => withArgs (parse args) s (f s)) = s.takeRequest k args fun s => f s a := by
  rw [h]
  rfl

end Requests

theorem SetLoopArgs.parse_bytes {a : SetLoopArgs} (h : a.inRange = true) (hp : a.linePos ≤ 255) :
    SetLoopArgs.parse a.bytes = some a := SetLoopArgs.parse_eq_some.2 ⟨⟨h, hp⟩, rfl⟩

theorem SetLoopArgs.length_bytes (a : SetLoopArgs) : a.bytes.length ≤ 32 := by simp [SetLoopArgs.bytes, putFields]

theorem exec_setLoop {a : SetLoopArgs} (h : a.inRange = true) (hp : a.linePos ≤ 255) (s : State) :
    exec (.setLoop a.bytes) s = .next (s.takeRequest .setLoop a.bytes fun s => serveSetLoop s a) :=
  congrArg Host.Outcome.next (State.takeRequest_withArgs .setLoop (SetLoopArgs.parse_bytes h hp))

/-! ## SET LOOP in its place (R16, R18) -/

theorem samePlace_iff (k : Link) (a : SetLoopArgs) :
    samePlace k a = true ↔ k.role = a.role ∧ k.linePos = if a.role = .line then some a.linePos else none := by
  rw [samePlace, Bool.and_eq_true, decide_eq_true_eq, decide_eq_true_eq]
  rfl

/-- A silence expiry moved to a new timeout; only a LIVE link has one (R18, R24). -/
theorem State.retimeLink_eq {s : State} {a : SetLoopArgs} {k : Link} (hk : s.link a.link = k) (hlegal : k.legal) :
    s.retimeLink a =
      if k.settings.silence ≠ a.settings.silence ∧ ∃ e ∈ (k.retimed a.settings).silenceExpiry, e ≤ s.now then
        s.withLink a.link ({ k with settings := a.settings }.afterLive .silent s.now) [.linkState]
      else s.withLink a.link (k.retimed a.settings) [] := by
  subst hk
  have hlive : ∀ e ∈ ((s.link a.link).retimed a.settings).silenceExpiry, (s.link a.link).state = .live := by
    intro e he
    obtain ⟨-, -, -, -, -, hlive, -⟩ := hlegal
    refine hlive.2 ?_
    unfold Link.retimed at he
    dsimp only at he
    split at he
    · exact Option.isSome_iff_exists.2 ⟨e, he⟩
    · obtain ⟨e', he', -⟩ := Option.map_eq_some_iff.1 he
      exact Option.isSome_iff_exists.2 ⟨e', he'⟩
  have hset : s.setLink a.link ((s.link a.link).retimed a.settings) =
      s.withLink a.link ((s.link a.link).retimed a.settings) [] := by
    refine s.setLink_eq_withLink a.link ?_
    rfl
  have hdue : (s.setLink a.link ((s.link a.link).retimed a.settings)).silenceDue a.link = true ↔
      ∃ e ∈ ((s.link a.link).retimed a.settings).silenceExpiry, e ≤ s.now := by
    rw [State.silenceDue, State.link_setLink_self, Bool.and_eq_true, decide_eq_true_eq]
    show _ ∧ reached s.now _ = true ↔ _
    constructor
    · rintro ⟨-, hreached⟩
      cases he : ((s.link a.link).retimed a.settings).silenceExpiry with
      | none => simp [he, reached] at hreached
      | some e =>
        rw [he] at hreached
        exact ⟨e, rfl, by simpa [reached] using hreached⟩
    · rintro ⟨e, he, hle⟩
      refine ⟨hlive e he, ?_⟩
      rw [Option.mem_def.1 he]
      simpa [reached] using hle
  rw [State.retimeLink]
  simp only [hdue]
  split
  · rw [State.silenceHappens_eq, State.link_setLink_self]
    refine s.withLink_setLink a.link _ ?_ _
    rfl
  · exact hset

theorem Link.retimed_eq (k : Link) (c : LinkSettings) :
    k.retimed c = { k with
      settings := c,
      silenceExpiry := k.silenceExpiry.map fun e =>
        if k.settings.silence = c.silence then e else e - k.settings.silence * 1000 + c.silence * 1000 } := by
  by_cases h : k.settings.silence = c.silence
  · simp [Link.retimed, h]
  · simp [Link.retimed, h, silenceOf, Config.perMs]

/-- Settles O19. -/
theorem setLoopSettings : Obligations.SetLoopSettings := by
  intro s a hr hk hrange hpos k old new moved due hrole hplace
  have ha : a.bytes.length ≤ 32 := SetLoopArgs.length_bytes a
  have hsame : samePlace (s.link a.link) a = true := (samePlace_iff _ _).2 ⟨hrole, hplace⟩
  refine ⟨_, exec_setLoop hrange hpos s, fun hlocked hlatency => ?_, fun hopen => ?_⟩
  · refine State.takeRequest_refused hr.1 hr.2 ha ?_
    have hne : ¬ (s.link a.link).settings.latency = a.settings.latency := fun h => hlatency h.symm
    refine if_pos ?_
    show (s.session.locked && !keepsLocked (s.link a.link) a) = true
    simp [hlocked, keepsLocked, hne]
  · have hserve : serveSetLoop (s.shiftZeros (a.bytes.length + 3)) a =
        accept ((s.shiftZeros (a.bytes.length + 3)).retimeLink a) [] := by
      have hkeeps : ¬ (s.session.locked && !keepsLocked (s.link a.link) a) = true := by
        rcases hopen with h | h
        · simp [h]
        · simp [keepsLocked, hsame, show (s.link a.link).settings.latency = a.settings.latency from h.symm]
      exact (if_neg hkeeps).trans (if_pos hsame)
    rw [State.takeRequest_accepted hr ha hserve]
    have hretime := State.retimeLink_eq (s := s.shiftZeros (a.bytes.length + 3)) (a := a) rfl hk
    have hmoved : ((s.link a.link).retimed a.settings).silenceExpiry = moved := by rw [Link.retimed_eq]
    have hdue : ((s.link a.link).settings.silence ≠ a.settings.silence ∧
        ∃ e ∈ ((s.link a.link).retimed a.settings).silenceExpiry, e ≤ s.now) ↔ due = true := by
      rw [hmoved, Bool.and_eq_true, decide_eq_true_eq, Option.any_eq_true]
      simp only [decide_eq_true_eq]
      rfl
    by_cases h : due = true
    · obtain ⟨hanswers, hevent⟩ := State.answered_linkEvent (k := .setLoop) (b := []) hr.1
        (hretime.trans (if_pos (hdue.2 h)))
      exact ⟨hanswers, fun hnot => absurd h (by simp [hnot]), fun _ => hevent⟩
    · obtain ⟨hanswers, hevent⟩ := State.answered_linkEvent (k := .setLoop) (b := []) hr.1
        (hretime.trans (if_neg fun hx => h (hdue.1 hx)))
      refine ⟨hanswers, fun _ => ?_, fun hset => absurd hset h⟩
      rw [← hmoved]
      exact hevent

/-! ## SET LOOP that moves the link (R16, R19, R20) -/

theorem State.lineCount_of_links {s t : State} (h : t.links = s.links) : t.lineCount = s.lineCount := by
  simp only [State.lineCount, State.heldPositions, State.linkList, h]

/-- Every record changed in place joins the changed-slot set where it differs (R74). -/
theorem Recorded.updAll {s u : State} {raised : List Cause} (hs : s.settled) (hw : s.table.records.wf)
    (htable : u.table = s.table) (hlist : u.order.list = s.order.list)
    (hchanged : u.report.changed = s.report.changed) (hcauses : RaisesOnly s u raised)
    (hlatch : u.report.latch = s.report.latch) (htimer : KeepsTimer s u) {f : Nat → Record → Record}
    (hposition : ∀ n r, (f n r).position = r.position) (hgap : ∀ n r, (f n r).gap = r.gap) :
    Recorded s (u.updAll f) raised := by
  have hrec : ∀ n, u.record? n = s.record? n := fun n => by rw [State.record?, htable, State.record?]
  have hmap : ∀ n, (u.updAll f).record? n = (s.record? n).map (f n) := fun n => by rw [State.updAll_record, hrec]
  constructor
  case changed =>
    intro n
    have hmem : n ∈ (u.updAll f).report.changed ↔
        n ∈ s.report.changed ∨ n ∈ (touchedSlots f s.table.records).map Prod.fst := by
      rw [State.updAll_eq, ← hchanged, ← htable]
      exact mem_foldl_joinSlot ..
    rw [hmem, hmap]
    refine or_congr_right ⟨fun hn => ?_, fun hn => ?_⟩
    · obtain ⟨⟨m, r⟩, hr, rfl⟩ := List.mem_map.1 hn
      obtain ⟨hin, hne⟩ := List.mem_filter.1 hr
      rw [show s.record? m = some r from KeyMap.find_of_mem hw hin]
      exact fun he => of_decide_eq_true hne (Option.some.inj he)
    · cases hr : s.record? n with
      | none => simp [hr] at hn
      | some r =>
        refine List.mem_map.2 ⟨(n, r), List.mem_filter.2 ⟨KeyMap.find_mem hr, decide_eq_true fun he => ?_⟩, rfl⟩
        exact hn (by rw [hr, Option.map_some, he])
  case causes => rw [State.updAll_eq]; exact hcauses
  case latch => rw [State.updAll_eq]; exact hlatch
  case timer => rw [State.updAll_eq]; exact htimer
  case wf => rw [State.updAll_eq, htable]; exact KeyMap.wf_mapVals hw _
  case list => rw [State.updAll_eq]; exact hlist
  case places =>
    intro n r hr
    obtain ⟨x, hx, rfl⟩ := Option.map_eq_some_iff.1 ((hmap n).symm.trans hr)
    rw [hposition]
    exact (hs.1.2 (n, x) (KeyMap.find_mem hx)).1
  case gaps =>
    intro n r r' hr hr'
    obtain ⟨x, hx, rfl⟩ := Option.map_eq_some_iff.1 ((hmap n).symm.trans hr')
    rw [hgap, Option.some.inj (hx.symm.trans hr)]
    exact .inl rfl

/-- The flags a SET LOOP that moves the link sets (R19, R24). -/
def Link.movedFlags (k : Link) (a : SetLoopArgs) : List LoopFlag :=
  if (k.moved a).state = k.state then [] else [.linkState]

/-- While nothing is locked, a link that moves has every record rebuilt (R19, R20). -/
theorem State.moveLink_eq {s : State} (hc : s.session.legal) (hopen : s.session.locked = false) (a : SetLoopArgs) :
    s.moveLink a =
      (s.withLink a.link ((s.link a.link).moved a) ((s.link a.link).movedFlags a)).updAll fun _ r =>
        r.remapped (s.withLink a.link ((s.link a.link).moved a) ((s.link a.link).movedFlags a)).lineCount := by
  obtain ⟨hlock, -⟩ := hc
  have hphase : s.session.phase = .idle ∨ s.session.phase = .closed ∨ s.session.phase = .rolling := by
    have hnot : ¬ underWay s.session.phase = true := fun h => by simp [hlock.2 h] at hopen
    cases hp : s.session.phase <;> simp [hp, underWay] at hnot ⊢
  have hset : s.setLink a.link ((s.link a.link).moved a) = s.withLink a.link ((s.link a.link).moved a) [] := by
    refine s.setLink_eq_withLink a.link ?_
    rfl
  have hflagged : (if ((s.link a.link).moved a).state = (s.link a.link).state then
        s.setLink a.link ((s.link a.link).moved a)
      else (s.setLink a.link ((s.link a.link).moved a)).setLoopFlag a.link .linkState) =
      s.withLink a.link ((s.link a.link).moved a) ((s.link a.link).movedFlags a) := by
    unfold Link.movedFlags
    rw [hset, State.setLoopFlag_withLink]
    split <;> rfl
  rw [State.moveLink, hflagged, State.remapRecords]
  exact if_pos hphase

/-- Settles O20. -/
theorem setLoopMoves : Obligations.SetLoopMoves := by
  intro s a hr hc htable hk hrange hpos k pos next hmoves
  have ha : a.bytes.length ≤ 32 := SetLoopArgs.length_bytes a
  have hsame : ¬ samePlace (s.link a.link) a = true := fun h => hmoves ((samePlace_iff _ _).1 h)
  refine ⟨_, exec_setLoop hrange hpos s, fun hlocked => ?_, fun hopen => ?_⟩
  · refine State.takeRequest_refused hr.1 hr.2 ha (if_pos ?_)
    show (s.session.locked && !keepsLocked (s.link a.link) a) = true
    simp [hlocked, keepsLocked, hsame]
  · have hserve : serveSetLoop (s.shiftZeros (a.bytes.length + 3)) a =
        accept ((s.shiftZeros (a.bytes.length + 3)).moveLink a) [] := by
      have hkeeps : ¬ (s.session.locked && !keepsLocked (s.link a.link) a) = true := by simp [hopen]
      exact (if_neg hkeeps).trans (if_neg hsame)
    rw [State.takeRequest_accepted hr ha hserve]
    have hmove := State.moveLink_eq (s := s.shiftZeros (a.bytes.length + 3)) hc hopen a
    have hrecorded : Recorded s ((s.shiftZeros (a.bytes.length + 3)).moveLink a)
        (loopsRaised k (k.movedFlags a)) := by
      rw [hmove]
      exact .updAll (u := (s.shiftZeros (a.bytes.length + 3)).withLink a.link (k.moved a) (k.movedFlags a)) hr.1
        htable.1 rfl rfl rfl (hasCause_loopsRaised s.report.causes k (k.movedFlags a)) rfl ⟨rfl, rfl⟩
        (fun _ _ => rfl) fun _ _ => rfl
    have hraised : .records ∉ loopsRaised k (k.movedFlags a) := by unfold loopsRaised; split <;> simp
    obtain ⟨htime, hlinks, hcircuit, hpending, hdraws⟩ := State.answered_blocks (s := s)
      (u := (s.shiftZeros (a.bytes.length + 3)).moveLink a) (k := .setLoop) (b := [])
    have hcloses := State.answered_closes (s := s)
      (u := (s.shiftZeros (a.bytes.length + 3)).moveLink a) (k := .setLoop) (b := [])
    have hfollows := State.answered_follows (k := .setLoop) (b := []) hr.1 hrecorded hraised
    have hanswers := State.answered_answers (s := s) (k := .setLoop) (b := []) (args := a.bytes)
      (u := (s.shiftZeros (a.bytes.length + 3)).moveLink a) (by rw [hmove, State.updAll_eq]; exact ⟨rfl, rfl, rfl, rfl, rfl⟩)
    generalize s.answered ((s.shiftZeros (a.bytes.length + 3)).moveLink a) .setLoop [] = t at *
    have hstate : (k.moved a).state = next := by
      show derivedState a.role k.framed = _
      unfold derivedState
      cases hf : k.framing <;> simp [next, Link.framed, hf]
    have hmlinks : ((s.shiftZeros (a.bytes.length + 3)).moveLink a).links =
        (s.withLink a.link (k.moved a) (k.movedFlags a)).links := by rw [hmove, State.updAll_eq]; rfl
    have hlink : ∀ j, t.link j = (s.withLink a.link (k.moved a) (k.movedFlags a)).link j := fun j => by
      rw [State.link, hlinks, hmlinks, State.link]
    have hlines : t.lineCount = (s.withLink a.link (k.moved a) (k.movedFlags a)).lineCount :=
      State.lineCount_of_links (hlinks.trans hmlinks)
    have hrec : ∀ n, ((s.shiftZeros (a.bytes.length + 3)).moveLink a).record? n =
        (s.record? n).map fun r => r.remapped t.lineCount := fun n => by
      rw [hmove, State.updAll_record, hlines]
      rfl
    have hcause : loopsRaised k (k.movedFlags a) = if next = k.state then [] else loopsRaised k [.linkState] := by
      rw [Link.movedFlags, hstate]
      split <;> rfl
    have hkept : KeepsTrackside { s with links := t.links } ((s.shiftZeros (a.bytes.length + 3)).moveLink a) ∧
        KeepsQueue s ((s.shiftZeros (a.bytes.length + 3)).moveLink a) ∧
        KeepsIndex s ((s.shiftZeros (a.bytes.length + 3)).moveLink a) ∧
        KeepsLead s ((s.shiftZeros (a.bytes.length + 3)).moveLink a) ∧
        ((s.shiftZeros (a.bytes.length + 3)).moveLink a).session = s.session := by
      refine ⟨⟨?_, hlinks.symm, ?_⟩, ?_⟩ <;> rw [hmove, State.updAll_eq]
      · rfl
      · rfl
      · exact ⟨⟨rfl, rfl⟩, ⟨rfl, rfl, rfl, rfl⟩, ⟨rfl, rfl⟩, rfl⟩
    obtain ⟨⟨htime', -, hcircuit'⟩, ⟨hpending', hdraws'⟩, ⟨i1, i2, i3, i4⟩, ⟨l1, l2⟩, hsession'⟩ := hkept
    obtain ⟨i1', i2', i3', i4'⟩ := hcloses.index
    obtain ⟨l1', l2'⟩ := hcloses.lead
    refine ⟨hanswers, ?_, fun j hj => ?_, htime.trans htime', hcircuit.trans hcircuit', hcloses.session.trans hsession',
      ⟨i1'.trans i1, i2'.trans i2, i3'.trans i3, i4'.trans i4⟩, ⟨l1'.trans l1, l2'.trans l2⟩,
      ⟨hpending.trans hpending', hdraws.trans hdraws'⟩, hcloses.agrees, hcause ▸ hfollows, fun n => ?_⟩
    · rw [hlink, State.link_withLink_self, Link.movedFlags, hstate]
      have hmoved : k.moved a = { k with
          role := a.role, linePos := pos, settings := a.settings, passings := [], latestHit := none, outage := none,
          noise := none, silenceExpiry := none, state := next } := by rw [← hstate]; rfl
      rw [hmoved]
      split <;> rfl
    · rw [hlink]
      exact s.link_withLink_ne a.link _ hj
    · cases hr' : s.record? n with
      | none =>
        refine .inl ⟨hcloses.free ?_, rfl⟩
        rw [hrec, hr']
        rfl
      | some r =>
        obtain ⟨x, hx, hplaced⟩ := hcloses.onlyPlaced (r := r.remapped t.lineCount) (by rw [hrec, hr']; rfl)
        exact .inr ⟨r, x, rfl, hx, hplaced⟩

/-! ## SET SECTOR, SET PIT and CLEAR LOOP FLAGS (R21, R22, R33) -/

/-- A request refused under the lock, or else one that writes the circuit settings alone. -/
theorem State.takeRequest_circuit {s : State} (hr : s.ready) {k : RequestKind} {args : List Byte}
    (ha : args.length ≤ 32) {c : Circuit} {serve : State → Served}
    (h : ∀ u : State, u.circuit = s.circuit → serve u =
      if u.session.locked then refuse u .locked else accept { u with circuit := c } []) :
    (s.session.locked = true → Refuses s (s.takeRequest k args serve) k args .locked) ∧
    (s.session.locked = false → Answers s (s.takeRequest k args serve) k args .ok [] ∧
      (s.takeRequest k args serve).circuit = c ∧ (s.takeRequest k args serve).time = s.time ∧
      (s.takeRequest k args serve).links = s.links ∧ KeepsRace s (s.takeRequest k args serve) ∧
      KeepsQueue s (s.takeRequest k args serve) ∧ KeepsTimer s (s.takeRequest k args serve) ∧
      KeepsNews s (s.takeRequest k args serve)) := by
  refine ⟨fun hlocked => ?_, fun hopen => ?_⟩
  · exact State.takeRequest_refused hr.1 hr.2 ha ((h (s.shiftZeros (args.length + 3)) rfl).trans (if_pos hlocked))
  · have hserve := (h (s.shiftZeros (args.length + 3)) rfl).trans (if_neg (by simp [hopen]))
    rw [State.takeRequest_accepted hr ha hserve]
    obtain ⟨htime, hlinks, hcircuit, hqueue⟩ := State.answered_blocks (s := s) (k := k) (b := [])
      (u := { s.shiftZeros (args.length + 3) with circuit := c })
    obtain ⟨hrace, hnews, htimer⟩ := State.answered_quiet (s := s) (k := k) (b := []) hr.1
      (u := { s.shiftZeros (args.length + 3) with circuit := c }) ⟨rfl, rfl, rfl⟩ ⟨rfl, rfl, rfl⟩ ⟨rfl, rfl⟩
    exact ⟨State.answered_answers ⟨rfl, rfl, rfl, rfl, rfl⟩, hcircuit, htime, hlinks, hrace, hqueue, htimer, hnews⟩

theorem SetSectorArgs.length_bytes (a : SetSectorArgs) : a.bytes.length ≤ 32 := by
  simp [SetSectorArgs.bytes, putFields]

theorem PitSettings.length_bytes (a : PitSettings) : a.bytes.length ≤ 32 := by simp [PitSettings.bytes, putFields]

theorem ClearFlagsArgs.length_bytes (a : ClearFlagsArgs) : a.bytes.length ≤ 32 := by
  unfold ClearFlagsArgs.bytes
  cases a.link <;> simp [putFields]

theorem State.link_clearLoopFlags (s : State) (a : ClearFlagsArgs) (l : LinkNo) :
    (s.clearLoopFlags a).link l = if a.link = none ∨ a.link = some l then
      { s.link l with flags := (s.link l).flags &&& ~~~a.mask } else s.link l := by
  unfold State.clearLoopFlags
  cases ha : a.link with
  | none =>
    simp only [true_or, if_true]
    exact getElem_mapLinks ..
  | some j =>
    simp only [reduceCtorEq, false_or, Option.some.injEq]
    by_cases hj : j = l
    · subst hj
      rw [if_pos rfl, State.link_setLink_self]
      rfl
    · rw [if_neg hj]
      exact s.link_setLink_ne j _ (Ne.symm hj)

/-- Settles O21. -/
theorem circuitSettings : Obligations.CircuitSettings := by
  intro s hr
  refine ⟨fun a ha => ⟨_, congrArg Host.Outcome.next
      (State.takeRequest_withArgs .setSector (SetSectorArgs.parse_eq_some.2 ⟨ha, rfl⟩)), ?_⟩,
    fun a ha => ⟨_, congrArg Host.Outcome.next
      (State.takeRequest_withArgs .setPit (PitSettings.parse_eq_some.2 ⟨ha, rfl⟩)), ?_⟩, fun a => ?_⟩
  · obtain ⟨hrefused, htaken⟩ := State.takeRequest_circuit hr (k := .setSector) (SetSectorArgs.length_bytes a)
      (c := { s.circuit with sectorMin := s.circuit.sectorMin.set a.sector a.minimum })
      (serve := fun s => if s.session.locked then refuse s .locked else accept (s.setSectorMin a) []) fun u hu => by
        rw [← hu]
        rfl
    refine ⟨hrefused, fun hopen => ?_⟩
    obtain ⟨hanswers, hcircuit, hothers⟩ := htaken hopen
    rw [hcircuit]
    exact ⟨hanswers, rfl, rfl, hothers⟩
  · exact State.takeRequest_circuit hr (k := .setPit) (PitSettings.length_bytes a)
      (c := { s.circuit with pit := some a })
      (serve := fun s => if s.session.locked then refuse s .locked else accept (s.setPit a) []) fun u hu => by
        rw [← hu]
        rfl
  · have hserve : (s.takeRequest .clearLoopFlags a.bytes fun s => accept (s.clearLoopFlags a) []) =
        s.answered ((s.shiftZeros (a.bytes.length + 3)).clearLoopFlags a) .clearLoopFlags [] :=
      State.takeRequest_accepted hr (ClearFlagsArgs.length_bytes a) rfl
    refine ⟨_, congrArg Host.Outcome.next
      ((State.takeRequest_withArgs .clearLoopFlags (ClearFlagsArgs.parse_eq_some.2 rfl)).trans hserve), ?_⟩
    have hkept : ((s.shiftZeros (a.bytes.length + 3)).clearLoopFlags a) =
        { s.shiftZeros (a.bytes.length + 3) with
          links := ((s.shiftZeros (a.bytes.length + 3)).clearLoopFlags a).links } := by
      unfold State.clearLoopFlags
      cases a.link <;> rfl
    obtain ⟨htime, hlinks, hcircuit, hqueue⟩ := State.answered_blocks (s := s) (k := .clearLoopFlags) (b := [])
      (u := (s.shiftZeros (a.bytes.length + 3)).clearLoopFlags a)
    obtain ⟨hrace, hnews, htimer⟩ := State.answered_quiet (s := s) (k := .clearLoopFlags) (b := []) hr.1
      (u := (s.shiftZeros (a.bytes.length + 3)).clearLoopFlags a)
      (by rw [hkept]; exact ⟨rfl, rfl, rfl⟩) (by rw [hkept]; exact ⟨rfl, rfl, rfl⟩) (by rw [hkept]; exact ⟨rfl, rfl⟩)
    refine ⟨State.answered_answers (by rw [hkept]; exact ⟨rfl, rfl, rfl, rfl, rfl⟩), fun l => ?_, htime.trans ?_,
      hcircuit.trans ?_, hrace, ⟨hqueue.1.trans ?_, hqueue.2.trans ?_⟩, htimer, hnews⟩
    · rw [State.link, hlinks]
      exact State.link_clearLoopFlags _ a l
    all_goals
      rw [hkept]
      rfl

end Sys2Proof.Machine
end

section
/-! The requests on records: what they write, and what stays beside it (R57 to R67, R74, R76, R127). -/

namespace Sys2Proof.Machine

/-! ## What a write of records keeps beside them -/

/-- The blocks beside the records, the session and the news of the reporting unit are as they were. -/
structure KeepsBeside (s u : State) : Prop where
  trackside : KeepsTrackside s u
  queue : KeepsQueue s u
  port : KeepsPort s u
  index : KeepsIndex s u
  lead : KeepsLead s u

theorem KeepsIndex.trans {s t u : State} (h : KeepsIndex s t) (k : KeepsIndex t u) : KeepsIndex s u := by
  obtain ⟨h1, h2, h3, h4⟩ := h
  obtain ⟨k1, k2, k3, k4⟩ := k
  exact ⟨k1.trans h1, k2.trans h2, k3.trans h3, k4.trans h4⟩

theorem KeepsLead.trans {s t u : State} (h : KeepsLead s t) (k : KeepsLead t u) : KeepsLead s u := by
  obtain ⟨h1, h2⟩ := h
  obtain ⟨k1, k2⟩ := k
  exact ⟨k1.trans h1, k2.trans h2⟩

theorem KeepsTrackside.trans {s t u : State} (h : KeepsTrackside s t) (k : KeepsTrackside t u) : KeepsTrackside s u := by
  obtain ⟨h1, h2, h3⟩ := h
  obtain ⟨k1, k2, k3⟩ := k
  exact ⟨k1.trans h1, k2.trans h2, k3.trans h3⟩

theorem KeepsQueue.trans {s t u : State} (h : KeepsQueue s t) (k : KeepsQueue t u) : KeepsQueue s u := by
  obtain ⟨h1, h2⟩ := h
  obtain ⟨k1, k2⟩ := k
  exact ⟨k1.trans h1, k2.trans h2⟩

theorem KeepsBeside.refl (s : State) : KeepsBeside s s :=
  ⟨⟨rfl, rfl, rfl⟩, ⟨rfl, rfl⟩, ⟨rfl, rfl, rfl, rfl, rfl⟩, ⟨rfl, rfl, rfl, rfl⟩, rfl, rfl⟩

theorem KeepsBeside.trans {s t u : State} (h : KeepsBeside s t) (k : KeepsBeside t u) : KeepsBeside s u :=
  ⟨h.trackside.trans k.trackside, h.queue.trans k.queue, h.port.trans k.port, h.index.trans k.index,
    h.lead.trans k.lead⟩

theorem KeepsBeside.putRecord (s : State) (n : Nat) (r : Record) : KeepsBeside s (s.putRecord n r) := by
  rcases s.putRecord_eq n r with ⟨he, -⟩ | he <;> rw [he]
  · exact .refl s
  · exact ⟨⟨rfl, rfl, rfl⟩, ⟨rfl, rfl⟩, ⟨rfl, rfl, rfl, rfl, rfl⟩, ⟨rfl, rfl, rfl, rfl⟩, rfl, rfl⟩

theorem KeepsBeside.setSession (s : State) (c : Session) : KeepsBeside s (s.setSession c) :=
  ⟨⟨rfl, rfl, rfl⟩, ⟨rfl, rfl⟩, ⟨rfl, rfl, rfl, rfl, rfl⟩, ⟨rfl, rfl, rfl, rfl⟩, rfl, rfl⟩

/-- A request's frame leaves the part settled (R156). -/
theorem State.settled.framed {s : State} (h : s.settled) (n : Nat) : (s.shiftZeros n).settled := by
  obtain ⟨horder, h1, h2, h3, h4, h5, -, h7, h8⟩ := h
  exact ⟨horder, h1, h2, h3, h4, h5, rfl, h7, h8⟩

theorem Recorded.unframed {s u : State} {n : Nat} {raised : List Cause} (h : Recorded (s.shiftZeros n) u raised) :
    Recorded s u raised :=
  ⟨h.changed, h.causes, h.latch, h.timer, h.wf, h.list, h.places, h.gaps⟩

section Written

variable {s u : State} {k : RequestKind} {args b : List Byte}

/-- A request that writes records, and the session at most beside them, is taken. -/
theorem State.answered_written (hs : s.settled) (hb : KeepsBeside (s.shiftZeros (args.length + 3)) u)
    (h : Recorded s u []) :
    Takes s (s.answered u k b) k args b ∧ KeepsIndex s (s.answered u k b) ∧ KeepsLead s (s.answered u k b) := by
  have hcloses := State.answered_closes (s := s) (u := u) (k := k) (b := b)
  have hindex : KeepsIndex s u := hb.index
  have hlead : KeepsLead s u := hb.lead
  exact ⟨State.answered_takes hs hb.trackside hb.queue hb.port h, hindex.trans hcloses.index, hlead.trans hcloses.lead⟩

end Written

/-! ## Records of the list written with the key they had -/

section Maps
variable {α β : Type}

theorem KeyMap.filterMap_put_present {f : Nat × α → Option β} {m : KeyMap α} (hw : m.wf) {k : Nat} {a b : α}
    (h : m.find k = some a) (hf : f (k, b) = f (k, a)) : (m.put k b).filterMap f = m.filterMap f := by
  induction m with
  | nil => exact nomatch h
  | cons p rest ih =>
    obtain ⟨j, c⟩ := p
    obtain ⟨hfirst, hrest⟩ := List.pairwise_cons.1 hw
    by_cases hj : j = k
    · subst hj
      obtain rfl : c = a := by simpa [KeyMap.find] using h
      simp [KeyMap.put, List.filterMap_cons, hf]
    · have hfind : KeyMap.find rest k = some a := by simpa [KeyMap.find, hj] using h
      have hlt : j < k := hfirst k (List.mem_map.2 ⟨(k, a), KeyMap.find_mem hfind, rfl⟩)
      have hput : KeyMap.put ((j, c) :: rest) k b = (j, c) :: KeyMap.put rest k b := by
        simp [KeyMap.put, Nat.lt_asymm hlt, Ne.symm hj]
      rw [hput, List.filterMap_cons, List.filterMap_cons, ih hrest hfind]

theorem KeyMap.filterMap_put_absent {f : Nat × α → Option β} {m : KeyMap α} {k : Nat} {b : α} (h : m.find k = none)
    (hf : f (k, b) = none) : (m.put k b).filterMap f = m.filterMap f := by
  induction m with
  | nil => simp [KeyMap.put, hf]
  | cons p rest ih =>
    obtain ⟨j, c⟩ := p
    by_cases hj : j = k
    · simp [KeyMap.find, hj] at h
    · have hfind : KeyMap.find rest k = none := by simpa [KeyMap.find, hj] using h
      simp only [KeyMap.put, Ne.symm hj, if_false]
      split
      · rw [List.filterMap_cons, hf]
      · rw [List.filterMap_cons, List.filterMap_cons, ih hfind]

end Maps

/-- The entry of the list a record gives, where it is in the running order (R116). -/
def orderEntry (ty : SessionType) (p : Nat × Record) : Option (List Int × Nat) :=
  if stateInOrder p.2.state then some (p.2.orderKey ty p.1, p.1) else none

theorem orderEntries_eq (ty : SessionType) (m : KeyMap Record) : orderEntries ty m = m.filterMap (orderEntry ty) := by
  induction m with
  | nil => rfl
  | cons p rest ih =>
    rw [List.filterMap_cons, ← ih, orderEntry]
    by_cases hstate : stateInOrder p.2.state = true <;> simp [orderEntries, hstate]

/-- A record written with the state and the key it had leaves the list as it was (R116). -/
theorem orderOf_put_present {ty : SessionType} {m : KeyMap Record} (hw : m.wf) {n : Nat} {r r' : Record}
    (h : m.find n = some r) (hentry : orderEntry ty (n, r') = orderEntry ty (n, r)) :
    orderOf ty (m.put n r') = orderOf ty m := by
  rw [orderOf, orderEntries_eq, KeyMap.filterMap_put_present hw h hentry, ← orderEntries_eq, orderOf]

theorem orderOf_put_absent {ty : SessionType} {m : KeyMap Record} {n : Nat} {r : Record} (h : m.find n = none)
    (hstate : stateInOrder r.state = false) : orderOf ty (m.put n r) = orderOf ty m := by
  have hentry : orderEntry ty (n, r) = none := by simp [orderEntry, hstate]
  rw [orderOf, orderEntries_eq, KeyMap.filterMap_put_absent h hentry, ← orderEntries_eq, orderOf]

/-- List and positions still agree after a record is written with its state, key, position and gap (R57, R116). -/
theorem State.orderAgrees.putRecord {s : State} (h : s.orderAgrees) (hw : s.table.records.wf) {n : Nat} {r r' : Record}
    (hr : s.record? n = some r) (hentry : ∀ ty, orderEntry ty (n, r') = orderEntry ty (n, r))
    (hposition : r'.position = r.position) (hgap : r'.gap = r.gap ∨ r'.position.isSome = true) :
    (s.putRecord n r').orderAgrees := by
  rcases s.putRecord_eq n r' with ⟨he, -⟩ | he <;> rw [he]
  · exact h
  · obtain ⟨hlist, hplaces⟩ := h
    refine ⟨hlist.trans (orderOf_put_present hw hr (hentry _)).symm, fun p hp => ?_⟩
    rcases KeyMap.mem_put hp with rfl | hp
    · obtain ⟨hplace, hnone⟩ := hplaces (n, r) (KeyMap.find_mem hr)
      refine ⟨hposition.trans hplace, fun hn => ?_⟩
      rcases hgap with hgap | hsome
      · exact hgap.trans (hnone (hposition.symm.trans hn))
      · exact nomatch hsome.symm.trans (congrArg Option.isSome hn)
    · exact hplaces p hp

/-! ## Who holds what (R53, R58, R61) -/

theorem State.codeHeldBy_isSome_iff {s : State} (hw : s.table.records.wf) (code : Nat) :
    (s.codeHeldBy code).isSome = true ↔ ∃ n r, s.record? n = some r ∧ r.code = code := by
  rw [State.codeHeldBy, Option.isSome_map, List.find?_isSome, ← State.exists_record_iff hw fun r => r.code = code]
  simp only [decide_eq_true_eq]

theorem State.carHeldBy_isSome_iff {s : State} (hw : s.table.records.wf) (car : Nat) :
    (s.carHeldBy car).isSome = true ↔ ∃ n r, s.record? n = some r ∧ r.car = car := by
  rw [State.carHeldBy, Option.isSome_map, List.find?_isSome, ← State.exists_record_iff hw fun r => r.car = car]
  simp only [decide_eq_true_eq]

/-! ## SET CAPACITY and DISMISS UNKNOWN (R60, R76) -/

section Table

variable {s : State} {k : RequestKind} {args : List Byte} {serve : State → Served}

/-- A request that writes the competitor table beside the records is taken. -/
theorem State.takeRequest_table (hr : s.ready) (ha : args.length ≤ 32) {c : CompetitorTable}
    (hc : c.records = s.table.records)
    (h : serve (s.shiftZeros (args.length + 3)) = accept { s.shiftZeros (args.length + 3) with table := c } []) :
    Takes s (s.takeRequest k args serve) k args [] ∧ (s.takeRequest k args serve).order = s.order ∧
    (s.takeRequest k args serve).session = s.session ∧ (s.takeRequest k args serve).table = c := by
  have hagrees : State.orderAgrees { s.shiftZeros (args.length + 3) with table := c } := by
    unfold State.orderAgrees
    rw [hc]
    exact hr.1.1
  have hitems : State.sessionItems { s.shiftZeros (args.length + 3) with table := c } = s.sessionItems := by
    simp only [State.sessionItems, State.countIn, hc]
    rfl
  have hclosed : s.answered { s.shiftZeros (args.length + 3) with table := c } k [] =
      (State.loadReply { s.shiftZeros (args.length + 3) with table := c } (some k) .ok []).settleAttention :=
    closeEvent_quiet hagrees hitems
  rw [State.takeRequest_accepted hr ha h]
  have hanswers : Answers s (s.answered { s.shiftZeros (args.length + 3) with table := c } k []) k args .ok [] :=
    State.answered_answers ⟨rfl, rfl, rfl, rfl, rfl⟩
  rw [hclosed] at hanswers ⊢
  have hreports : Reports s
      (State.loadReply { s.shiftZeros (args.length + 3) with table := c } (some k) .ok []).settleAttention [] :=
    State.settleAttention_reports hr.1.2 List.not_mem_nil rfl (fun x => by simp [State.loadReply]) rfl ⟨rfl, rfl⟩
  exact ⟨⟨hanswers, ⟨rfl, rfl, rfl⟩, ⟨rfl, rfl⟩, hreports.follows hr.1.2 hc rfl rfl⟩, rfl, rfl, rfl⟩

end Table

/-- Outside ROLLING a request goes on to its own rule (R59, R132). -/
theorem unlessRolling_framed {s : State} (h : s.session.phase ≠ .rolling) (n : Nat) (f : Served) :
    unlessRolling (s.shiftZeros n) f = f :=
  unlessRolling_of_ne (s := s.shiftZeros n) h f

theorem parseSlot_byte {n : Nat} (h1 : 1 ≤ n) (h2 : n ≤ 128) : parseSlot [BitVec.ofNat 8 n] = some n :=
  parseSlot_iff.2 ⟨h1, h2, rfl⟩

theorem DismissArgs.length_bytes (a : DismissArgs) : a.bytes.length ≤ 32 := by
  unfold DismissArgs.bytes
  cases a.code <;> simp [putFields]

/-- Settles O33. -/
theorem capacityAndDismiss : Obligations.CapacityAndDismiss := by
  intro s hr
  refine ⟨fun n hlegal h1 h2 hroll => ⟨_, congrArg Host.Outcome.next
      (State.takeRequest_withArgs .setCapacity (parseCapacity_iff.2 ⟨h1, h2, rfl⟩)), ?_, ?_⟩,
    fun a ha => ⟨_, congrArg Host.Outcome.next
      (State.takeRequest_withArgs .dismissUnknown (DismissArgs.parse_bytes ha)), fun hall => ?_, fun c hc => ⟨?_, ?_⟩⟩⟩
  · rintro hlt ⟨m, r, hm, hrec⟩
    have habove : ¬ (s.table.slotLimit ≤ n ∨ s.freeAbove n = true) := by
      rintro (h | h)
      · omega
      · exact Nat.not_le.2 hm (of_decide_eq_true (List.all_eq_true.1 h (m, r) (KeyMap.find_mem hrec)))
    exact State.takeRequest_refused hr.1 hr.2 (by simp) ((unlessRolling_framed hroll _ _).trans (if_neg habove))
  · intro hfree
    have habove : s.table.slotLimit ≤ n ∨ s.freeAbove n = true := by
      refine hfree.imp_right fun hnone => List.all_eq_true.2 fun p hp => decide_eq_true ?_
      by_contra hlt
      exact hnone ⟨p.1, p.2, Nat.not_le.1 hlt, KeyMap.find_of_mem hlegal.1 hp⟩
    exact State.takeRequest_table hr (by simp) rfl ((unlessRolling_framed hroll _ _).trans (if_pos habove))
  · refine State.takeRequest_table hr (DismissArgs.length_bytes a) (by rfl) ?_
    simp only [serveDismiss, hall]
    unfold State.clearFull
    split <;> rfl
  · rintro ⟨e, he, hcode⟩
    have hany : (s.table.unknown.any fun e => decide (e.code = c)) = true :=
      List.any_eq_true.2 ⟨e, he, decide_eq_true hcode⟩
    refine State.takeRequest_table hr (DismissArgs.length_bytes a) (by rfl) ?_
    simp only [serveDismiss, hc]
    refine (if_pos hany).trans ?_
    unfold State.clearFull
    split <;> rfl
  · intro hnone
    have hany : ¬ (s.table.unknown.any fun e => decide (e.code = c)) = true := fun h => by
      obtain ⟨e, he, hcode⟩ := List.any_eq_true.1 h
      exact hnone e he (of_decide_eq_true hcode)
    refine State.takeRequest_refused hr.1 hr.2 (DismissArgs.length_bytes a) ?_
    simp only [serveDismiss, hc]
    exact if_neg hany

end Sys2Proof.Machine
end

section
/-! ENROL and AMEND (R53, R58, R61, R62, R75). -/

namespace Sys2Proof.Machine

/-! ## A record in a slot that was free (R54, R61, R74) -/

/-- A slot without a record of the running order has no place in the list (R116). -/
theorem State.orderAgrees.placeOf_none {s : State} (h : s.orderAgrees) (hw : s.table.records.wf) {n : Nat}
    (hn : ∀ r, s.record? n = some r → stateInOrder r.state = false) : placeOf s.order.list n = none := by
  refine Option.not_isSome_iff_eq_none.1 fun hsome => ?_
  rw [placeOf_isSome_iff, h.1, mem_orderOf hw] at hsome
  obtain ⟨r, hr, hstate⟩ := hsome
  exact nomatch hstate.symm.trans (hn r hr)

theorem State.putRecord_of_free {s : State} {n : Nat} {r : Record} (hr : s.record? n = none) :
    s.putRecord n r = (s.setRecords (s.table.records.put n r)).markChanged n := by
  rw [State.putRecord, if_neg (by simp [hr])]

section Fill

variable {s : State} (hs : s.settled) (hw : s.table.records.wf) {slot : Nat} {r : Record} (hr : s.record? slot = none)
  (hposition : r.position = none)

include hs hw hr hposition

theorem Recorded.fill : Recorded s (s.putRecord slot r) [] := by
  have hput := State.putRecord_of_free (r := r) hr
  have hself := s.putRecord_record_self slot r
  constructor
  case changed =>
    intro n
    have hmem : n ∈ (s.putRecord slot r).report.changed ↔ n = slot ∨ n ∈ s.report.changed := by
      rw [hput]
      exact mem_joinSlot slot n _
    rw [hmem, or_comm]
    refine or_congr_right ⟨fun hn => ?_, fun hn => ?_⟩
    · rw [hn, hself, hr]
      exact fun h => nomatch h
    · by_contra hns
      exact hn (s.putRecord_record_ne r hns)
  case causes => rw [hput]; exact fun c => by simp [State.markChanged, State.setRecords]
  case latch => rw [hput]; rfl
  case timer => rw [hput]; exact ⟨rfl, rfl⟩
  case wf => rw [hput]; exact KeyMap.wf_put hw _ _
  case list => rw [hput]; rfl
  case places =>
    intro n x hx
    by_cases hn : n = slot
    · subst hn
      rw [← Option.some.inj (hself.symm.trans hx), hposition,
        hs.1.placeOf_none hw fun y hy => nomatch hr.symm.trans hy]
    · rw [s.putRecord_record_ne r hn] at hx
      exact (hs.1.2 (n, x) (KeyMap.find_mem hx)).1
  case gaps =>
    intro n x x' hx hx'
    by_cases hn : n = slot
    · subst hn
      exact nomatch hr.symm.trans hx
    · rw [s.putRecord_record_ne r hn] at hx'
      exact .inl (by rw [Option.some.inj (hx'.symm.trans hx)])

theorem State.orderAgrees.fill (hstate : stateInOrder r.state = false) (hgap : r.gap = none) :
    (s.putRecord slot r).orderAgrees := by
  obtain ⟨hlist, hplaces⟩ := hs.1
  rw [State.putRecord_of_free hr]
  refine ⟨hlist.trans (orderOf_put_absent hr hstate).symm, fun p hp => ?_⟩
  rcases KeyMap.mem_put hp with rfl | hp
  · exact ⟨hposition.trans (hs.1.placeOf_none hw fun y hy => nomatch hr.symm.trans hy).symm, fun _ => hgap⟩
  · exact hplaces p hp

end Fill

@[simp] theorem State.putRecord_order (s : State) (n : Nat) (r : Record) : (s.putRecord n r).order = s.order := by
  rcases s.putRecord_eq n r with ⟨he, -⟩ | he <;> rw [he]
  rfl

/-! ## ENROL (R61) -/

theorem EnrolArgs.length_bytes (a : EnrolArgs) : a.bytes.length ≤ 32 := by
  unfold EnrolArgs.bytes
  cases a.grid <;> simp [putFields]

/-- The lowest free slot within the limit (R61). -/
theorem State.freeSlotFor_eq_some {s : State} {slot : Nat} (h1 : 1 ≤ slot) (h2 : slot ≤ s.table.slotLimit)
    (hfree : s.record? slot = none) (hlowest : ∀ n, 1 ≤ n → n < slot → s.record? n ≠ none) :
    s.freeSlotFor = some slot := by
  refine List.find?_eq_some_iff_getElem.2 ⟨by simp [hfree], slot - 1, by simp; omega, by simp; omega, fun j hj => ?_⟩
  have hheld := hlowest (j + 1) (by omega) (by omega)
  simpa [Option.isSome_iff_ne_none] using hheld

theorem State.freeSlotFor_eq_none {s : State} (h : ∀ n, 1 ≤ n → n ≤ s.table.slotLimit → s.record? n ≠ none) :
    s.freeSlotFor = none := by
  refine List.find?_eq_none.2 fun n hn => ?_
  obtain ⟨j, hj, rfl⟩ := List.mem_map.1 hn
  have hheld := h (j + 1) (by omega) (by simpa using hj)
  simpa [Option.isSome_iff_ne_none] using hheld

/-- What ENROL writes beside the record: the index and the unknown list (R58, R61). -/
theorem State.enrol_blocks (s : State) (a : EnrolArgs) (slot : Nat) :
    KeepsTrackside s (s.enrol a slot) ∧ KeepsQueue s (s.enrol a slot) ∧ KeepsPort s (s.enrol a slot) ∧
    (s.enrol a slot).order = s.order ∧ (s.enrol a slot).session = s.session ∧
    (s.enrol a slot).table.index = s.table.index.put a.code slot ∧
    (s.enrol a slot).table.unknown = s.table.unknown.filter (fun e => e.code ≠ a.code) ∧
    (s.enrol a slot).table.unknownFull = s.table.unknownFull ∧ (s.enrol a slot).table.slotLimit = s.table.slotLimit := by
  unfold State.enrol
  rcases s.putRecord_eq slot (newRecord a s.session.number s.lineCount) with ⟨he, -⟩ | he <;> rw [he]
  · exact ⟨⟨rfl, rfl, rfl⟩, ⟨rfl, rfl⟩, ⟨rfl, rfl, rfl, rfl, rfl⟩, rfl, rfl, rfl, rfl, rfl, rfl⟩
  · exact ⟨⟨rfl, rfl, rfl⟩, ⟨rfl, rfl⟩, ⟨rfl, rfl, rfl, rfl, rfl⟩, rfl, rfl, rfl, rfl, rfl, rfl⟩

theorem exec_enrol {a : EnrolArgs} (h : a.inRange = true) (s : State) :
    exec (.enrol a.bytes) s = .next (s.takeRequest .enrol a.bytes fun s => serveEnrol s a) :=
  congrArg Host.Outcome.next (State.takeRequest_withArgs .enrol (EnrolArgs.parse_eq_some.2 ⟨h, rfl⟩))

/-- Settles O29. -/
theorem enrol : Obligations.Enrol := by
  intro s a hr htable ha hroll codeHeld carHeld
  have hw := htable.1
  have hlen := EnrolArgs.length_bytes a
  have hcode : (s.codeHeldBy a.code).isSome = true ↔ codeHeld := State.codeHeldBy_isSome_iff hw a.code
  have hcar : (s.carHeldBy a.car).isSome = true ↔ carHeld := State.carHeldBy_isSome_iff hw a.car
  refine ⟨_, exec_enrol ha s, fun hheld => ?_, fun hfree hheld => ?_, fun hfree hfree' hfull => ?_,
    fun hfree hfree' slot h1 h2 hslot hlowest => ?_⟩
  · exact State.takeRequest_refused hr.1 hr.2 hlen ((unlessRolling_framed hroll _ _).trans (if_pos (hcode.2 hheld)))
  · exact State.takeRequest_refused hr.1 hr.2 hlen ((unlessRolling_framed hroll _ _).trans
      ((if_neg fun h => hfree (hcode.1 h)).trans (if_pos (hcar.2 hheld))))
  · refine State.takeRequest_refused hr.1 hr.2 hlen ((unlessRolling_framed hroll _ _).trans
      ((if_neg fun h => hfree (hcode.1 h)).trans ((if_neg fun h => hfree' (hcar.1 h)).trans ?_)))
    have hnone : (s.shiftZeros (a.bytes.length + 3)).freeSlotFor = none := State.freeSlotFor_eq_none hfull
    rw [hnone]
  · have hserve : serveEnrol (s.shiftZeros (a.bytes.length + 3)) a =
        accept ((s.shiftZeros (a.bytes.length + 3)).enrol a slot) (beBytes 1 slot) := by
      refine (unlessRolling_framed hroll _ _).trans
        ((if_neg fun h => hfree (hcode.1 h)).trans ((if_neg fun h => hfree' (hcar.1 h)).trans ?_))
      have hsome : (s.shiftZeros (a.bytes.length + 3)).freeSlotFor = some slot :=
        State.freeSlotFor_eq_some h1 h2 hslot hlowest
      rw [hsome]
    rw [State.takeRequest_accepted hr hlen hserve]
    have hwritten : Recorded s ((s.shiftZeros (a.bytes.length + 3)).enrol a slot) [] :=
      (Recorded.fill (hr.1.framed (a.bytes.length + 3)) hw (r := newRecord a s.session.number s.lineCount) hslot
        rfl).unframed.of_same rfl rfl ⟨rfl, rfl, rfl⟩ ⟨rfl, rfl⟩
    have hagrees : ((s.shiftZeros (a.bytes.length + 3)).enrol a slot).orderAgrees :=
      State.orderAgrees.fill (hr.1.framed (a.bytes.length + 3)) hw
        (r := newRecord a s.session.number s.lineCount) hslot rfl rfl rfl
    obtain ⟨htrackside, hqueue, hport, horder, hsession, hindex, hunknown, hfull, hlimit⟩ :=
      State.enrol_blocks (s.shiftZeros (a.bytes.length + 3)) a slot
    have hrec : ∀ n, ((s.shiftZeros (a.bytes.length + 3)).enrol a slot).record? n =
        ((s.shiftZeros (a.bytes.length + 3)).putRecord slot (newRecord a s.session.number s.lineCount)).record? n :=
      fun _ => rfl
    obtain ⟨htable', horder'⟩ := State.answered_race (s := s) (k := .enrol) (b := beBytes 1 slot) hagrees
    have hcloses := State.answered_closes (s := s) (u := (s.shiftZeros (a.bytes.length + 3)).enrol a slot) (k := .enrol)
      (b := beBytes 1 slot)
    refine ⟨State.answered_takes hr.1 htrackside hqueue hport hwritten, horder'.trans horder,
      hcloses.session.trans hsession, fun n hn => ?_, ?_, ?_, fun c hc => ?_, ?_, ?_, ?_⟩
    · rw [State.record?, htable', ← State.record?, hrec]
      exact State.putRecord_record_ne _ _ hn
    · rw [State.record?, htable', ← State.record?, hrec, State.putRecord_record_self]
      rfl
    · rw [htable', hindex]
      exact KeyMap.find_put_self ..
    · rw [htable', hindex]
      exact KeyMap.find_put_ne _ _ hc
    · exact (congrArg CompetitorTable.unknown htable').trans hunknown
    · exact (congrArg CompetitorTable.unknownFull htable').trans hfull
    · exact (congrArg CompetitorTable.slotLimit htable').trans hlimit

/-! ## AMEND (R62) -/

theorem AmendArgs.length_bytes (a : AmendArgs) : a.bytes.length ≤ 32 := by
  obtain ⟨slot, code, car, cls, grid⟩ := a
  cases code <;> cases car <;> cases cls <;> cases grid <;> simp [AmendArgs.bytes, putFields]

theorem exec_amend {a : AmendArgs} (h : a.inRange = true) (s : State) :
    exec (.amend a.bytes) s = .next (s.takeRequest .amend a.bytes fun s => serveAmend s a) :=
  congrArg Host.Outcome.next (State.takeRequest_withArgs .amend (AmendArgs.parse_eq_some.2 ⟨h, rfl⟩))

theorem withRecord_some {s : State} {slot : Nat} {r : Record} (h : s.record? slot = some r) (f : Record → Served) :
    withRecord s slot f = f r := by
  rw [withRecord, h]

theorem withRecord_none {s : State} {slot : Nat} (h : s.record? slot = none) (f : Record → Served) :
    withRecord s slot f = refuse s .noSuchRecord := by
  rw [withRecord, h]

theorem heldByOther_code_iff {s : State} (h : s.table.legal) (code slot : Nat) :
    heldByOther (s.codeHeldBy code) slot = true ↔ ∃ n r, n ≠ slot ∧ s.record? n = some r ∧ r.code = code := by
  obtain ⟨-, -, hheld, hpair, -⟩ := s.table.legal_iff.1 h
  rw [← State.find_index_of_codeHeldBy h, heldByOther, Option.any_eq_true]
  constructor
  · rintro ⟨n, hn, hne⟩
    obtain ⟨r, hr, hcode⟩ := hpair code n hn
    exact ⟨n, r, of_decide_eq_true hne, hr, hcode⟩
  · rintro ⟨n, r, hne, hr, rfl⟩
    exact ⟨n, hheld n r hr, decide_eq_true hne⟩

theorem heldByOther_car_iff {s : State} (h : s.table.legal) (car slot : Nat) :
    heldByOther (s.carHeldBy car) slot = true ↔ ∃ n r, n ≠ slot ∧ s.record? n = some r ∧ r.car = car := by
  rw [heldByOther, Option.any_eq_true]
  constructor
  · rintro ⟨n, hn, hne⟩
    obtain ⟨⟨m, r⟩, hfind, rfl⟩ := Option.map_eq_some_iff.1 hn
    have hcar : decide (r.car = car) = true := List.find?_some (p := fun p : Nat × Record => decide (p.2.car = car)) hfind
    exact ⟨m, r, of_decide_eq_true hne, KeyMap.find_of_mem h.1 (List.mem_of_find?_eq_some hfind),
      of_decide_eq_true hcar⟩
  · rintro ⟨n, r, hne, hr, rfl⟩
    exact ⟨n, State.carHeldBy_of_record h hr, decide_eq_true hne⟩

/-- The index once the code of a slot's record is `new` (R58, R62). -/
def recodedIndex (m : KeyMap Nat) (slot old new : Nat) : KeyMap Nat :=
  if new = old then m else (m.remove old).put new slot

/-- The unknown list once a record's code is `new` (R62). -/
def recodedUnknown (u : List UnknownEntry) (old new : Nat) : List UnknownEntry :=
  if new = old then u else dropUnknown new u

/-- What AMEND writes beside the record: nothing where the code stays, the index and the unknown list where it changes
(R58, R62). -/
theorem State.recode_eq (s : State) (slot old : Nat) (new : Option Nat) :
    s.recode slot old new =
      { s with table := { s.table with
        index := recodedIndex s.table.index slot old (new.getD old),
        unknown := recodedUnknown s.table.unknown old (new.getD old) } } := by
  unfold recodedIndex recodedUnknown
  cases new with
  | none => simp [State.recode]
  | some c =>
    simp only [State.recode, Option.getD_some]
    split <;> rfl

theorem find_recodedIndex {s : State} (h : s.table.legal) {slot : Nat} {r : Record} (hr : s.record? slot = some r)
    (new c : Nat) :
    (recodedIndex s.table.index slot r.code new).find c =
      if c = new then some slot else if c = r.code then none else s.table.index.find c := by
  obtain ⟨-, hiw, hheld, -⟩ := s.table.legal_iff.1 h
  unfold recodedIndex
  split
  · rename_i hsame
    subst hsame
    split
    · subst c
      exact hheld slot r hr
    · rfl
  · rw [KeyMap.find_put, KeyMap.find_remove hiw]

/-- A code that a record holds is not in the unknown list (R75). -/
theorem recodedUnknown_eq_filter {s : State} (h : s.table.legal) (hu : s.table.unknownLegal) {slot : Nat} {r : Record}
    (hr : s.record? slot = some r) (new : Nat) :
    recodedUnknown s.table.unknown r.code new = s.table.unknown.filter fun e => e.code ≠ new := by
  obtain ⟨-, -, hheld, -⟩ := s.table.legal_iff.1 h
  obtain ⟨-, -, -, hunknown⟩ := hu
  unfold recodedUnknown
  split
  · rename_i hsame
    refine (List.filter_eq_self.2 fun e he => ?_).symm
    rw [decide_eq_true_eq]
    intro hcode
    obtain ⟨-, -, -, hnone⟩ := hunknown e he
    rw [hcode, hsame, hheld slot r hr] at hnone
    exact nomatch hnone
  · rfl

/-- Settles O30. -/
theorem amend : Obligations.Amend := by
  intro s a hr htable hunknown ha hroll codeTaken carTaken
  have hw := htable.1
  have hlen := AmendArgs.length_bytes a
  have hcode : a.code.any (fun c => heldByOther (s.codeHeldBy c) a.slot) = true ↔ codeTaken := by
    rw [Option.any_eq_true]
    exact exists_congr fun c => and_congr_right fun _ => heldByOther_code_iff htable c a.slot
  have hcar : a.car.any (fun c => heldByOther (s.carHeldBy c) a.slot) = true ↔ carTaken := by
    rw [Option.any_eq_true]
    exact exists_congr fun c => and_congr_right fun _ => heldByOther_car_iff htable c a.slot
  refine ⟨_, exec_amend ha s, fun hnone => ?_, fun r hrec => ⟨fun htaken => ?_, fun hfree htaken => ?_,
    fun hfree hfree' => ?_⟩⟩
  · exact State.takeRequest_refused hr.1 hr.2 hlen ((unlessRolling_framed hroll _ _).trans
      (withRecord_none (s := s.shiftZeros (a.bytes.length + 3)) hnone _))
  · exact State.takeRequest_refused hr.1 hr.2 hlen ((unlessRolling_framed hroll _ _).trans
      ((withRecord_some (s := s.shiftZeros (a.bytes.length + 3)) hrec _).trans (if_pos (hcode.2 htaken))))
  · exact State.takeRequest_refused hr.1 hr.2 hlen ((unlessRolling_framed hroll _ _).trans
      ((withRecord_some (s := s.shiftZeros (a.bytes.length + 3)) hrec _).trans
        ((if_neg fun h => hfree (hcode.1 h)).trans (if_pos (hcar.2 htaken)))))
  · have hserve : serveAmend (s.shiftZeros (a.bytes.length + 3)) a =
        accept (((s.shiftZeros (a.bytes.length + 3)).putRecord a.slot (r.amended a)).recode a.slot r.code a.code) [] :=
      (unlessRolling_framed hroll _ _).trans
        ((withRecord_some (s := s.shiftZeros (a.bytes.length + 3)) hrec _).trans
          ((if_neg fun h => hfree (hcode.1 h)).trans (if_neg fun h => hfree' (hcar.1 h))))
    rw [State.takeRequest_accepted hr hlen hserve]
    have hbeside := KeepsBeside.putRecord (s.shiftZeros (a.bytes.length + 3)) a.slot (r.amended a)
    have hsession : ((s.shiftZeros (a.bytes.length + 3)).putRecord a.slot (r.amended a)).session = s.session :=
      State.putRecord_session ..
    have hrecorded := (Recorded.putRecord (hr.1.framed (a.bytes.length + 3)) hw (r' := r.amended a) hrec rfl
      (.inl rfl)).unframed
    have hagrees : ((s.shiftZeros (a.bytes.length + 3)).putRecord a.slot (r.amended a)).orderAgrees :=
      State.orderAgrees.putRecord (s := s.shiftZeros (a.bytes.length + 3)) hr.1.1 hw hrec (fun _ => rfl) rfl (.inl rfl)
    have hself := (s.shiftZeros (a.bytes.length + 3)).putRecord_record_self a.slot (r.amended a)
    have hothers : ∀ n, n ≠ a.slot →
        ((s.shiftZeros (a.bytes.length + 3)).putRecord a.slot (r.amended a)).record? n = s.record? n :=
      fun n hn => State.putRecord_record_ne _ _ hn
    have horder : ((s.shiftZeros (a.bytes.length + 3)).putRecord a.slot (r.amended a)).order = s.order :=
      State.putRecord_order ..
    obtain ⟨hindex, hunknown', hfull, hlimit⟩ := hbeside.index
    rw [State.recode_eq]
    generalize (s.shiftZeros (a.bytes.length + 3)).putRecord a.slot (r.amended a) = v at *
    obtain ⟨htable', horder'⟩ := State.answered_race (s := s) (k := .amend) (b := [])
      (u := { v with table := { v.table with
        index := recodedIndex v.table.index a.slot r.code (a.code.getD r.code),
        unknown := recodedUnknown v.table.unknown r.code (a.code.getD r.code) } }) hagrees
    have hcloses := State.answered_closes (s := s) (k := .amend) (b := [])
      (u := { v with table := { v.table with
        index := recodedIndex v.table.index a.slot r.code (a.code.getD r.code),
        unknown := recodedUnknown v.table.unknown r.code (a.code.getD r.code) } })
    refine ⟨State.answered_takes hr.1 hbeside.trackside hbeside.queue hbeside.port
        (hrecorded.of_same rfl rfl ⟨rfl, rfl, rfl⟩ ⟨rfl, rfl⟩), horder'.trans horder, hcloses.session.trans hsession,
      fun n hn => ?_, ?_, fun c => ?_, ?_, ?_, ?_⟩
    · rw [State.record?, htable']
      exact hothers n hn
    · rw [State.record?, htable']
      exact hself
    · rw [htable']
      show (recodedIndex v.table.index a.slot r.code _).find c = _
      rw [hindex]
      exact find_recodedIndex htable hrec _ c
    · rw [htable']
      show recodedUnknown v.table.unknown r.code _ = _
      rw [hunknown']
      exact recodedUnknown_eq_filter htable hunknown hrec _
    · exact (congrArg CompetitorTable.unknownFull htable').trans hfull
    · exact (congrArg CompetitorTable.slotLimit htable').trans hlimit

end Sys2Proof.Machine
end

section
/-! RETIRE, REINSTATE, EXCLUDE and RELEASE (R57, R63 to R66, R142), ADJUST and READ RECORD (R67, R127, R171). -/

namespace Sys2Proof.Machine

/-! ## The field (R142) -/

theorem State.countIn_eq_zero_iff {s : State} (hw : s.table.records.wf) (st : RecState) :
    s.countIn st = 0 ↔ ∀ n r, s.record? n = some r → r.state ≠ st := by
  rw [State.countIn, List.length_eq_zero_iff, List.filter_eq_nil_iff]
  simp only [decide_eq_true_eq]
  exact ⟨fun h n r hr => h (n, r) (KeyMap.find_mem hr), fun h p hp => h p.1 p.2 (KeyMap.find_of_mem hw hp)⟩

theorem State.fieldEmpty_iff {s : State} (hw : s.table.records.wf) : s.fieldEmpty = true ↔ FieldIn s := by
  rw [State.fieldEmpty, Bool.and_eq_true, decide_eq_true_eq, decide_eq_true_eq, State.countIn_eq_zero_iff hw,
    State.countIn_eq_zero_iff hw]
  exact ⟨fun h n r hr => ⟨h.1 n r hr, h.2 n r hr⟩, fun h => ⟨fun n r hr => (h n r hr).1, fun n r hr => (h n r hr).2⟩⟩

theorem OnlyPlaced.state {r x : Record} (h : OnlyPlaced r x) : x.state = r.state := (congrArg Record.state h.1 :)

/-- The field is in after the end of an event where it was in before it. -/
theorem Closes.fieldIn_iff {u t : State} (h : Closes u t) : FieldIn t ↔ FieldIn u := by
  constructor
  · intro hin n r hr
    obtain ⟨x, hx, hplaced⟩ := h.onlyPlaced hr
    rw [← hplaced.state]
    exact hin n x hx
  · intro hin n x hx
    cases hr : u.record? n with
    | none => exact nomatch hx.symm.trans (h.free hr)
    | some r =>
      obtain ⟨y, hy, hplaced⟩ := h.onlyPlaced hr
      rw [Option.some.inj (hx.symm.trans hy), hplaced.state]
      exact hin n r hr

theorem KeepsBeside.fieldIn (s : State) : KeepsBeside s s.fieldIn := by
  unfold State.fieldIn
  split
  · exact .setSession s _
  · exact .refl s

theorem State.fieldIn_same (s : State) :
    s.fieldIn.table = s.table ∧ s.fieldIn.order = s.order ∧ s.fieldIn.report = s.report := by
  unfold State.fieldIn
  split <;> exact ⟨rfl, rfl, rfl⟩

/-- While CHEQUERED the session closes where the field is in (R142). -/
theorem State.fieldIn_session {s : State} (hw : s.table.records.wf) (hp : s.session.phase = .chequered) :
    (FieldIn s → s.fieldIn.session = s.session.shut) ∧ (¬ FieldIn s → s.fieldIn.session = s.session) := by
  refine ⟨fun h => ?_, fun h => ?_⟩
  · rw [State.fieldIn, if_pos ⟨hp, (State.fieldEmpty_iff hw).2 h⟩]
    rfl
  · rw [State.fieldIn, if_neg fun hx => h ((State.fieldEmpty_iff hw).1 hx.2)]

theorem State.fieldIn_of_ne {s : State} (h : s.session.phase ≠ .chequered) : s.fieldIn = s := by
  rw [State.fieldIn, if_neg fun hx => h hx.1]

/-! ## A record put into another state by a request (R57, R63 to R65) -/

section Become

variable {s : State} {k : RequestKind} {slot : Nat} {r r' : Record} {serve : State → Served}

/-- What the record joins or leaves, and whether the session closes (R57, R142). -/
def Becomes (s t : State) (k : RequestKind) (slot : Nat) (r' : Record) : Prop :=
  Takes s t k [BitVec.ofNat 8 slot] [] ∧ KeepsLead s t ∧ KeepsIndex s t ∧ t.orderAgrees ∧ OthersOnlyPlaced s t slot ∧
  ∃ x, t.record? slot = some x ∧ OnlyPlaced r' x

/-- A record is written, and the close test made where it left RUNNING or PIT (R57, R142). -/
theorem State.takeRequest_becomes (hr : s.ready) (htable : s.table.legal) (hrec : s.record? slot = some r)
    (hposition : r'.position = r.position) (hgap : r'.gap = r.gap) (was : RecState)
    (h : serve (s.shiftZeros 4) = accept (((s.shiftZeros 4).putRecord slot r').leftField was) []) :
    Becomes s (s.takeRequest k [BitVec.ofNat 8 slot] serve) k slot r' ∧
    (s.session.phase = .chequered ∧ inProgress was = true →
      EndsAs (s.takeRequest k [BitVec.ofNat 8 slot] serve) s.session) ∧
    (¬(s.session.phase = .chequered ∧ inProgress was = true) →
      (s.takeRequest k [BitVec.ofNat 8 slot] serve).session = s.session) := by
  have hput := KeepsBeside.putRecord (s.shiftZeros 4) slot r'
  have hself := (s.shiftZeros 4).putRecord_record_self slot r'
  have hothers : ∀ n, n ≠ slot → ((s.shiftZeros 4).putRecord slot r').record? n = s.record? n :=
    fun n hn => State.putRecord_record_ne _ _ hn
  have hsession : ((s.shiftZeros 4).putRecord slot r').session = s.session := State.putRecord_session ..
  have hrecorded := (Recorded.putRecord (hr.1.framed 4) htable.1 (r' := r') hrec hposition (.inl hgap)).unframed
  rw [State.takeRequest_accepted (args := [BitVec.ofNat 8 slot]) hr (by simp) h]
  generalize (s.shiftZeros 4).putRecord slot r' = v at *
  have hleft : v.leftField was = if inProgress was = true then v.fieldIn else v := rfl
  have hbeside : KeepsBeside (s.shiftZeros 4) (v.leftField was) := by
    rw [hleft]
    split
    · exact hput.trans (.fieldIn v)
    · exact hput
  have hsame : (v.leftField was).table = v.table ∧ (v.leftField was).order = v.order ∧
      (v.leftField was).report = v.report := by
    rw [hleft]
    split
    · exact v.fieldIn_same
    · exact ⟨rfl, rfl, rfl⟩
  obtain ⟨htable', horder', hreport'⟩ := hsame
  have hrec' : ∀ n, (v.leftField was).record? n = v.record? n := fun n => by rw [State.record?, htable', State.record?]
  have hwritten : Recorded s (v.leftField was) [] := hrecorded.of_same (by rw [htable']) (by rw [horder'])
    (by unfold KeepsNews; rw [hreport']; exact ⟨rfl, rfl, rfl⟩) (by unfold KeepsTimer; rw [hreport']; exact ⟨rfl, rfl⟩)
  obtain ⟨htakes, hindex, hlead⟩ := State.answered_written (k := k) (b := []) (args := [BitVec.ofNat 8 slot]) hr.1 hbeside
    hwritten
  have hcloses := State.answered_closes (s := s) (u := v.leftField was) (k := k) (b := [])
  refine ⟨⟨htakes, hlead, hindex, hcloses.agrees, hcloses.others fun n hn => (hrec' n).trans (hothers n hn),
    hcloses.onlyPlaced ((hrec' slot).trans hself)⟩, fun ⟨hp, hwas⟩ => ?_, fun hnot => ?_⟩
  · have hends := State.fieldIn_session hrecorded.wf (hsession ▸ hp)
    rw [hsession] at hends
    have hfield : FieldIn (s.answered (v.leftField was) k []) ↔ FieldIn v := by
      rw [hcloses.fieldIn_iff]
      simp only [FieldIn, hrec']
    rw [EndsAs, hfield, hcloses.session, hleft, if_pos hwas]
    exact hends
  · rw [hcloses.session, hleft]
    split
    · rename_i hwas
      rw [State.fieldIn_of_ne fun hp => hnot ⟨hsession ▸ hp, hwas⟩, hsession]
    · exact hsession

end Become

theorem exec_slotRequest {k : RequestKind} {n : Nat} (h1 : 1 ≤ n) (h2 : n ≤ 128) (f : State → Nat → Served) (s : State) :
    (s.takeRequest k [BitVec.ofNat 8 n] fun s => withArgs (parseSlot [BitVec.ofNat 8 n]) s (f s)) =
      s.takeRequest k [BitVec.ofNat 8 n] fun s => f s n :=
  State.takeRequest_withArgs k (parseSlot_byte h1 h2)

/-- The rule of a request on a record that exists, outside ROLLING (R59). -/
theorem serveRecord_eq {s : State} (hroll : s.session.phase ≠ .rolling) {slot : Nat} {r : Record}
    (hrec : s.record? slot = some r) (m : Nat) (f : Record → Served) :
    unlessRolling (s.shiftZeros m) (withRecord (s.shiftZeros m) slot f) = f r :=
  (unlessRolling_framed hroll _ _).trans (withRecord_some (s := s.shiftZeros m) hrec f)

theorem inProgress_iff (st : RecState) : inProgress st = true ↔ st = .running ∨ st = .pit := by
  cases st <;> decide

theorem mayRelease_iff {p : Phase} (hp : p ≠ .rolling) (r : Record) :
    mayRelease p r = true ↔ (p = .idle ∨ p = .closed) ∧ r.state ≠ .running ∧ r.state ≠ .pit ∨
      r.state = .enrolled ∧ r.started = false := by
  unfold mayRelease
  cases r.state <;> simp [hp]

/-- What RETIRE and EXCLUDE make of the pit record (R63, R65). -/
theorem Record.closePit_pit (r : Record) : r.closePit.pit = if r.state = .pit then r.pit.map fun p =>
    { p with exit := none, transit := none, speed := none, speeding := false, isOpen := false } else r.pit := by
  unfold Record.closePit
  split <;> rfl

theorem Record.retire_eq (r : Record) :
    r.retire = { r with state := .retired, retiredFrom := some r.state, pit := r.closePit.pit } := by
  unfold Record.retire
  rw [Record.closePit_eq]

theorem Record.exclude_eq (r : Record) :
    r.exclude = { r with state := .excluded, retiredFrom := none, pit := r.closePit.pit } := by
  unfold Record.exclude
  rw [Record.closePit_eq]

/-- A slot freed joins the changed-slot set (R66, R74). -/
theorem Recorded.freeSlot {s : State} (hs : s.settled) (hw : s.table.records.wf) {slot : Nat} {r : Record}
    (hrec : s.record? slot = some r) : Recorded s (s.freeSlot slot) [] := by
  have hfind : ∀ n, (s.freeSlot slot).record? n = if n = slot then none else s.record? n :=
    fun n => KeyMap.find_remove hw slot n
  constructor
  case changed =>
    intro n
    have hmem : n ∈ (s.freeSlot slot).report.changed ↔ n = slot ∨ n ∈ s.report.changed := mem_joinSlot slot n _
    rw [hmem, or_comm, hfind]
    refine or_congr_right ⟨fun hn => ?_, fun hn => ?_⟩
    · rw [if_pos hn, hn, hrec]
      exact fun h => nomatch h
    · by_contra hns
      exact hn (if_neg hns)
  case causes => exact fun c => by simp [State.freeSlot, State.markChanged, State.setRecords]
  case latch => rfl
  case timer => exact ⟨rfl, rfl⟩
  case wf => exact KeyMap.wf_remove hw slot
  case list => rfl
  case places =>
    intro n x hx
    rw [hfind] at hx
    split at hx
    · exact nomatch hx
    · exact (hs.1.2 (n, x) (KeyMap.find_mem hx)).1
  case gaps =>
    intro n x x' hx hx'
    rw [hfind] at hx'
    split at hx'
    · exact nomatch hx'
    · exact .inl (by rw [Option.some.inj (hx'.symm.trans hx)])

/-- Settles O31: three requests write the record, and RELEASE frees its slot. -/
theorem recordStates : Obligations.RecordStates := by
  intro s slot r hr htable hlegal h1 h2 hroll hrec args shut becomes fieldIn
  have hlen : args.length ≤ 32 := by simp [args]
  have hserves := fun f => serveRecord_eq hroll hrec (args.length + 3) f
  have hshut : r.closePit.pit = shut := r.closePit_pit
  refine ⟨⟨_, congrArg Host.Outcome.next (exec_slotRequest h1 h2 serveRetire s), fun hnot => ?_, fun hne hne' => ?_⟩,
    ⟨_, congrArg Host.Outcome.next (exec_slotRequest h1 h2 serveExclude s), fun hex => ?_, fun hne => ?_⟩,
    ⟨_, congrArg Host.Outcome.next (exec_slotRequest h1 h2 serveReinstate s), fun hne => ?_, fun st hret hfrom => ?_⟩,
    ⟨_, congrArg Host.Outcome.next (exec_slotRequest h1 h2 serveRelease s), fun hnot => ?_, fun hfree => ?_⟩⟩
  · refine State.takeRequest_refused hr.1 hr.2 hlen ((hserves _).trans (if_neg ?_))
    rcases hnot with h | h <;> simp [mayRetire, h]
  · have hmay : mayRetire r.state = true := by simp [mayRetire, hne, hne']
    obtain ⟨hbecomes, hends, hkeeps⟩ := State.takeRequest_becomes (k := .retire) (r' := r.retire)
      (serve := fun s => serveRetire s slot) hr htable hrec
      (by rw [Record.retire_eq]) (by rw [Record.retire_eq]) r.state ((hserves _).trans (if_pos hmay))
    rw [inProgress_iff] at hends hkeeps
    rw [Record.retire_eq, hshut] at hbecomes
    refine ⟨hbecomes, ?_⟩
    dsimp only [fieldIn]
    split
    · exact hends ‹_›
    · exact hkeeps ‹_›
  · exact State.takeRequest_read hr hlen ((hserves _).trans (if_pos hex))
  · obtain ⟨hbecomes, hends, hkeeps⟩ := State.takeRequest_becomes (k := .exclude) (r' := r.exclude)
      (serve := fun s => serveExclude s slot) hr htable hrec
      (by rw [Record.exclude_eq]) (by rw [Record.exclude_eq]) r.state ((hserves _).trans (if_neg hne))
    rw [inProgress_iff] at hends hkeeps
    rw [Record.exclude_eq, hshut] at hbecomes
    refine ⟨hbecomes, ?_⟩
    dsimp only [fieldIn]
    split
    · exact hends ‹_›
    · exact hkeeps ‹_›
  · exact State.takeRequest_refused hr.1 hr.2 hlen ((hserves _).trans (if_neg hne))
  · have hfrom' : r.reinstate (r.retiredFrom.getD .enrolled) = r.reinstate st := by rw [hfrom]; rfl
    obtain ⟨hbecomes, -, hkeeps⟩ := State.takeRequest_becomes (k := .reinstate) (r' := r.reinstate st)
      (serve := fun s => serveReinstate s slot) hr htable hrec rfl rfl .enrolled
      (hfrom' ▸ (hserves _).trans (if_pos hret))
    exact ⟨hkeeps fun h => (nomatch h.2), hbecomes⟩
  · refine State.takeRequest_refused hr.1 hr.2 hlen ((hserves _).trans (if_neg fun h => hnot ?_))
    exact (mayRelease_iff hroll r).1 h
  · have hserve : serveRelease (s.shiftZeros (args.length + 3)) slot =
        accept (((s.shiftZeros (args.length + 3)).freeSlot slot).setIndex (s.table.index.remove r.code)) [] :=
      (hserves _).trans (if_pos ((mayRelease_iff hroll r).2 hfree))
    have hrecorded := ((Recorded.freeSlot (hr.1.framed (args.length + 3)) htable.1 hrec).unframed.of_same
      (v := ((s.shiftZeros (args.length + 3)).freeSlot slot).setIndex (s.table.index.remove r.code)) rfl rfl
      ⟨rfl, rfl, rfl⟩ ⟨rfl, rfl⟩)
    have hfind : ∀ n, (((s.shiftZeros (args.length + 3)).freeSlot slot).setIndex (s.table.index.remove r.code)).record? n =
        if n = slot then none else s.record? n := fun n => KeyMap.find_remove htable.1 slot n
    rw [State.takeRequest_accepted hr hlen hserve]
    have hcloses := State.answered_closes (s := s) (k := .release) (b := [])
      (u := ((s.shiftZeros (args.length + 3)).freeSlot slot).setIndex (s.table.index.remove r.code))
    obtain ⟨hindex, hunknown, hfull, hlimit⟩ := hcloses.index
    refine ⟨State.answered_takes hr.1 ⟨rfl, rfl, rfl⟩ ⟨rfl, rfl⟩ ⟨rfl, rfl, rfl, rfl, rfl⟩ hrecorded, hcloses.lead,
      hcloses.session, hcloses.agrees, hcloses.others fun n hn => (hfind n).trans (if_neg hn),
      hcloses.free ((hfind slot).trans (if_pos rfl)), fun c => ?_, hunknown, hfull, hlimit⟩
    rw [hindex]
    exact KeyMap.find_remove htable.2.1 r.code c

end Sys2Proof.Machine
end

section
/-! ADJUST and READ RECORD (R67, R127, R169, R171). -/

namespace Sys2Proof.Machine

/-! ## The parts of a record's body (R171) -/

theorem sectorBytes_eq (e : SectorEntry) : sectorBytes e = sectorEntry e := by
  cases e with
  | timed t => by_cases h : t = 4294967295 <;> simp [sectorBytes, sectorEntry, timedEntry, timeEntry, overRange, h]
  | _ => rfl

theorem bestSectorBytes_eq (o : Option Nat) : bestSectorBytes o = bestSectorEntry o := by
  cases o with
  | none => rfl
  | some t => by_cases h : t = 4294967295 <;> simp [bestSectorBytes, bestSectorEntry, timedEntry, timeEntry, overRange, h]

theorem length_sectorEntry (e : SectorEntry) : (sectorEntry e).length = 5 := by
  cases e <;> simp [sectorEntry, timeEntry]

theorem length_bestSectorEntry (o : Option Nat) : (bestSectorEntry o).length = 5 := by
  cases o <;> simp [bestSectorEntry, timeEntry]

theorem length_flatMap_five {α : Type} (f : α → List Byte) (hf : ∀ a, (f a).length = 5) (xs : List α) :
    (xs.flatMap f).length = 5 * xs.length := by
  induction xs with
  | nil => rfl
  | cons x xs ih =>
    rw [List.flatMap_cons, List.length_append, hf, ih, List.length_cons]
    omega

/-- The flags of the lap with the started flag below them (R171). -/
theorem lapByte_eq (m : Mask 4) (b : Bool) :
    BitVec.ofNat 8 ((if b then 1 else 0) + 2 * m.toNat) = 0#3 ++ m ++ BitVec.ofBool b := by
  revert m b
  decide

theorem noticeByte_eq (m : Mask 7) : BitVec.ofNat 8 m.toNat = (0#1 ++ m : Byte) := by
  have hm : m.toNat < 256 := m.isLt.trans (by decide)
  have happend : (0#1 ++ m : BitVec (1 + 7)).toNat = m.toNat :=
    (BitVec.toNat_append _ _).trans (by simp)
  exact BitVec.eq_of_toNat_eq ((BitVec.toNat_ofNat ..).trans ((Nat.mod_eq_of_lt hm).trans happend.symm))

theorem lapFlagByte_eq (m : Mask 4) : BitVec.ofNat 8 m.toNat = (0#4 ++ m : Byte) := by
  revert m
  decide

/-- The presence mask of a record (R171). -/
def shownMask (r : Record) : Nat :=
  maskOf [r.grid.isSome, r.retiredFrom.isSome, r.lapStart.isSome, r.lastPos.isSome, r.lastTime.isSome, r.latest.isSome,
    r.delta.isSome, r.gap.isSome, r.position.isSome, r.elapsed.isSome, r.finish.isSome, r.pit.isSome,
    r.pit.any (·.entry.isSome), r.pit.any (·.exit.isSome), r.pit.any (·.transit.isSome),
    r.pit.any (·.speed.isSome), r.sighting.isSome, r.rejection.isSome, r.lastLap.isSome, r.bestLap.isSome]

theorem maskNat_recordPresence (r : Record) : maskNat (recordPresence r) = shownMask r := by
  rw [maskNat_eq_maskOf, recordPresence, shownMask]
  cases r.pit <;> rfl

theorem orZero_retiredFrom (o : Option RecState) :
    orZero 1 (o.map RecState.code) = [match o with | some st => recStateByte st | none => 0x00#8] := by
  cases o with
  | none => rfl
  | some st => exact (beBytes_one st.code).trans (by rw [byte_recState])

/-- The bytes of the pit record (R171). -/
def pitRecordBytes (o : Option PitRecord) : List Byte :=
  match o with
  | some y => [BitVec.ofNat 8 (maskOf [y.speeding, y.isOpen, decide (y.transit = some 4294967295)])] ++
      beBytes 6 (y.entry.getD 0) ++ beBytes 6 (y.exit.getD 0) ++ beBytes 4 (y.transit.getD 0) ++
      beBytes 2 (y.speed.getD 0)
  | none => List.replicate 19 0x00#8

theorem pitRecordBytes_eq (o : Option PitRecord) :
    beBytes 1 (pitFlags o) ++ orZero 6 (o.bind (·.entry)) ++ orZero 6 (o.bind (·.exit)) ++
      orZero 4 (o.bind (·.transit)) ++ orZero 2 (o.bind (·.speed)) = pitRecordBytes o := by
  cases o with
  | none => rfl
  | some y =>
    have hflags : pitFlags (some y) = maskOf [y.speeding, y.isOpen, decide (y.transit = some 4294967295)] := by
      have htransit : y.transit.any overRange = decide (y.transit = some 4294967295) := by
        cases y.transit with
        | none => rfl
        | some t => simp [overRange, Config.topTime]
      rw [pitFlags, htransit]
      cases y.speeding <;> cases y.isOpen <;> cases decide (y.transit = some 4294967295) <;> rfl
    rw [hflags]
    rfl

/-- The bytes of the last sighting (R171). -/
def sightingShown (o : Option Sighting) : List Byte :=
  match o with
  | some y => [BitVec.ofNat 8 y.link.val,
      match y.quality with | .good => 0x00#8 | .saturated => 0x01#8 | .stalled => 0x02#8] ++ beBytes 6 y.time
  | none => List.replicate 8 0x00#8

theorem sightingBytes_eq (o : Option Sighting) : sightingBytes o = sightingShown o := by
  cases o with
  | none => rfl
  | some y =>
    obtain ⟨link, time, quality⟩ := y
    cases quality <;> rfl

/-- The bytes of the last rejection (R171). -/
def rejectionShown (o : Option Rejection) : List Byte :=
  match o with
  | some y => [BitVec.ofNat 8 y.link.val,
      match y.reason with
      | .echo => 0x00#8 | .tooSoon => 0x01#8 | .pitCancelled => 0x02#8 | .outOfState => 0x03#8] ++ beBytes 6 y.time
  | none => List.replicate 8 0x00#8

theorem rejectionBytes_eq (o : Option Rejection) : rejectionBytes o = rejectionShown o := by
  cases o with
  | none => rfl
  | some y =>
    obtain ⟨link, time, reason⟩ := y
    cases reason <;> rfl

/-- The bytes of the last lap without its sectors (R171). -/
def lastLapShown (o : Option LastLap) : List Byte :=
  match o with
  | some y => beBytes 2 y.number ++ (match y.time with
      | .timed t => timeEntry t
      | .untimed => [0x06#8, 0x00#8, 0x00#8, 0x00#8, 0x00#8]
      | .unseen => [0x08#8, 0x00#8, 0x00#8, 0x00#8, 0x00#8]) ++ [0#4 ++ y.flags]
  | none => List.replicate 8 0x00#8

theorem lastLapBytes_eq (o : Option LastLap) : lastLapBytes o = lastLapShown o := by
  cases o with
  | none => rfl
  | some y =>
    obtain ⟨number, time, flags, sectors⟩ := y
    have hflags : beBytes 1 flags.toNat = [0#4 ++ flags] := (beBytes_one _).trans (by rw [lapFlagByte_eq])
    cases time with
    | timed t =>
      have htime : timedEntry t = timeEntry t := sectorBytes_eq (.timed t)
      simp only [lastLapBytes, lastLapShown, lapTimeBytes, htime, hflags]
    | untimed => simp only [lastLapBytes, lastLapShown, hflags]; rfl
    | unseen => simp only [lastLapBytes, lastLapShown, hflags]; rfl

/-- The bytes of the best lap without its sectors (R171). -/
def bestLapShown (o : Option BestLap) : List Byte :=
  match o with
  | some y => beBytes 2 y.number ++ beBytes 4 y.time ++ beBytes 6 y.setTime
  | none => List.replicate 12 0x00#8

theorem bestLapBytes_eq (o : Option BestLap) : bestLapBytes o = bestLapShown o := by
  cases o <;> rfl

/-- The four lists of sector entries (R171). -/
def sectorsShown (r : Record) (lines : Nat) : List Byte :=
  r.sectors.flatMap sectorEntry ++
    (match r.lastLap with
      | some y => y.sectors.flatMap sectorEntry | none => List.replicate (5 * lines) 0x00#8) ++
    (match r.bestLap with
      | some y => y.sectors.flatMap bestSectorEntry | none => List.replicate (5 * lines) 0x00#8) ++
    r.bestSectors.flatMap bestSectorEntry

theorem sectorsShown_eq (r : Record) (lines : Nat) :
    r.sectors.flatMap sectorBytes ++ sectorListBytes lines (r.lastLap.map (·.sectors)) sectorBytes ++
      sectorListBytes lines (r.bestLap.map (·.sectors)) bestSectorBytes ++ r.bestSectors.flatMap bestSectorBytes =
      sectorsShown r lines := by
  have hsector : sectorBytes = sectorEntry := funext sectorBytes_eq
  have hbest : bestSectorBytes = bestSectorEntry := funext bestSectorBytes_eq
  rw [hsector, hbest, sectorsShown]
  cases r.lastLap <;> cases r.bestLap <;> rfl

/-- The head of a record's body: what has the same width in every record (R171). -/
def recordHead (slot : Nat) (r : Record) (lines : Nat) : List Byte :=
  [BitVec.ofNat 8 slot, recStateByte r.state] ++ beBytes 4 (shownMask r) ++ beBytes 3 r.code ++ beBytes 2 r.car ++
    [BitVec.ofNat 8 r.cls, BitVec.ofNat 8 (r.grid.getD 0), BitVec.ofNat 8 r.session, BitVec.ofNat 8 lines,
     match r.retiredFrom with | some st => recStateByte st | none => 0x00#8] ++
    beBytes 2 r.laps ++ [0#3 ++ r.lapFlags ++ BitVec.ofBool r.started, 0#1 ++ r.notices] ++
    beBytes 6 (r.lapStart.getD 0) ++ [BitVec.ofNat 8 (r.lastPos.getD 0)] ++ beBytes 6 (r.lastTime.getD 0) ++
    beBytes 6 (r.latest.getD 0) ++ beBytes 4 ((r.delta.getD 0) % 4294967296).toNat ++
    [BitVec.ofNat 8 (gapEntry r.gap).1] ++ beBytes 6 (gapEntry r.gap).2 ++ [BitVec.ofNat 8 (r.position.getD 0)] ++
    beBytes 6 (r.elapsed.getD 0) ++ beBytes 6 (r.finish.getD 0) ++ beBytes 4 r.penalty ++
    beBytes 2 (r.netAdjust % 65536).toNat ++ [BitVec.ofNat 8 r.pitStops]

theorem unsignedOf_two (z : Int) : unsignedOf 2 z = (z % 65536).toNat := by
  have h : ((256 ^ 2 : Nat) : Int) = 65536 := by norm_num
  rw [unsignedOf, h]

theorem unsignedOf_four (z : Int) : unsignedOf 4 z = (z % 4294967296).toNat := by
  have h : ((256 ^ 4 : Nat) : Int) = 4294967296 := by norm_num
  rw [unsignedOf, h]

/-- The head of a record's body as the model writes it. -/
def headItems (slot : Nat) (r : Record) (lines : Nat) : List Byte :=
  beBytes 1 slot ++ beBytes 1 r.state.code ++ beBytes 4 (maskNat (recordPresence r)) ++
  beBytes 3 r.code ++ beBytes 2 r.car ++ beBytes 1 r.cls ++ orZero 1 r.grid ++ beBytes 1 r.session ++
  beBytes 1 lines ++ orZero 1 (r.retiredFrom.map RecState.code) ++ beBytes 2 r.laps ++
  beBytes 1 ((if r.started then 1 else 0) + 2 * r.lapFlags.toNat) ++ beBytes 1 r.notices.toNat ++
  orZero 6 r.lapStart ++ orZero 1 r.lastPos ++ orZero 6 r.lastTime ++ orZero 6 r.latest ++
  beBytes 4 (unsignedOf 4 (r.delta.getD 0)) ++ beBytes 1 (gapForm r.gap) ++ beBytes 6 (gapValue r.gap) ++
  orZero 1 r.position ++ orZero 6 r.elapsed ++ orZero 6 r.finish ++ beBytes 4 r.penalty ++
  beBytes 2 (unsignedOf 2 r.netAdjust) ++ beBytes 1 r.pitStops

theorem append_five {α : Type} (x a b c d e : List α) :
    x ++ a ++ b ++ c ++ d ++ e = x ++ (a ++ b ++ c ++ d ++ e) := by
  simp only [List.append_assoc]

theorem append_four {α : Type} (x a b c d : List α) : x ++ a ++ b ++ c ++ d = x ++ (a ++ b ++ c ++ d) := by
  simp only [List.append_assoc]

theorem recordBody_split (slot : Nat) (r : Record) (lines : Nat) :
    recordBody slot r lines =
      headItems slot r lines ++ pitRecordBytes r.pit ++ sightingShown r.sighting ++ rejectionShown r.rejection ++
        lastLapShown r.lastLap ++ bestLapShown r.bestLap ++ sectorsShown r lines := by
  rw [← pitRecordBytes_eq, ← sectorsShown_eq, ← append_four, ← append_five, ← sightingBytes_eq, ← rejectionBytes_eq,
    ← lastLapBytes_eq, ← bestLapBytes_eq]
  rfl

theorem headItems_eq (slot : Nat) (r : Record) (lines : Nat) : headItems slot r lines = recordHead slot r lines := by
  have hgap : BitVec.ofNat 8 (gapForm r.gap) = BitVec.ofNat 8 (gapEntry r.gap).1 ∧ gapValue r.gap = (gapEntry r.gap).2 := by
    cases r.gap with
    | none => exact ⟨rfl, rfl⟩
    | some x => cases x <;> exact ⟨rfl, rfl⟩
  unfold headItems recordHead
  simp only [orZero_retiredFrom, maskNat_recordPresence]
  simp only [beBytes_one, orZero, byte_recState, unsignedOf_two, unsignedOf_four, noticeByte_eq, lapByte_eq, hgap.1, hgap.2]
  simp only [List.append_assoc, List.cons_append, List.nil_append]

/-- A record's body as R171 lays it out. -/
theorem recordBody_eq (slot : Nat) (r : Record) (lines : Nat) :
    recordBody slot r lines =
      recordHead slot r lines ++ pitRecordBytes r.pit ++ sightingShown r.sighting ++ rejectionShown r.rejection ++
        lastLapShown r.lastLap ++ bestLapShown r.bestLap ++ sectorsShown r lines := by
  rw [recordBody_split, headItems_eq]

/-! ## Its length (R171) -/

theorem length_recordHead (slot : Nat) (r : Record) (lines : Nat) : (recordHead slot r lines).length = 70 := by
  unfold recordHead
  simp only [List.length_append, length_beBytes, List.length_cons, List.length_nil]

theorem length_pitRecordBytes (o : Option PitRecord) : (pitRecordBytes o).length = 19 := by
  cases o <;> simp [pitRecordBytes]

theorem length_sightingShown (o : Option Sighting) : (sightingShown o).length = 8 := by
  cases o <;> simp [sightingShown]

theorem length_rejectionShown (o : Option Rejection) : (rejectionShown o).length = 8 := by
  cases o <;> simp [rejectionShown]

theorem length_lastLapShown (o : Option LastLap) : (lastLapShown o).length = 8 := by
  cases o with
  | none => rfl
  | some y =>
    obtain ⟨number, time, flags, sectors⟩ := y
    cases time <;> simp [lastLapShown, timeEntry]

theorem length_bestLapShown (o : Option BestLap) : (bestLapShown o).length = 12 := by
  cases o <;> simp [bestLapShown]

theorem length_sectorsShown {r : Record} {lines : Nat} (h : r.sized lines) :
    (sectorsShown r lines).length = 20 * lines := by
  obtain ⟨hsectors, hbests, hlast, hbest⟩ := h
  have hs := length_flatMap_five sectorEntry length_sectorEntry
  have hb := length_flatMap_five bestSectorEntry length_bestSectorEntry
  have hl : (match r.lastLap with
      | some y => y.sectors.flatMap sectorEntry | none => List.replicate (5 * lines) 0x00#8).length = 5 * lines := by
    cases hx : r.lastLap with
    | none => exact List.length_replicate
    | some y => exact (hs _).trans (by rw [hlast y hx])
  have hg : (match r.bestLap with
      | some y => y.sectors.flatMap bestSectorEntry | none => List.replicate (5 * lines) 0x00#8).length = 5 * lines := by
    cases hx : r.bestLap with
    | none => exact List.length_replicate
    | some y => exact (hb _).trans (by rw [hbest y hx])
  rw [sectorsShown, List.length_append, List.length_append, List.length_append, hs, hb, hl, hg, hsectors, hbests]
  omega

theorem length_recordBody {r : Record} {lines : Nat} (h : r.sized lines) (slot : Nat) :
    (recordBody slot r lines).length = 125 + 20 * lines := by
  rw [recordBody_eq]
  simp only [List.length_append, length_recordHead, length_pitRecordBytes, length_sightingShown, length_rejectionShown,
    length_lastLapShown, length_bestLapShown, length_sectorsShown h]

/-! ## ADJUST (R127) -/

theorem AdjustArgs.length_bytes (a : AdjustArgs) : a.bytes.length ≤ 32 := by simp [AdjustArgs.bytes, putFields]

theorem exec_adjust {a : AdjustArgs} (h : a.inRange = true) (s : State) :
    exec (.adjust a.bytes) s = .next (s.takeRequest .adjust a.bytes fun s => serveAdjust s a) :=
  congrArg Host.Outcome.next (State.takeRequest_withArgs .adjust (AdjustArgs.parse_eq_some.2 ⟨h, rfl⟩))

/-- The laps after an ADJUST, held between 0 and 65,535 (R127). -/
theorem clampedLaps_eq (z : Int) : (clampInt 0 65535 z).toNat = min z.toNat 65535 := by
  unfold clampInt
  omega

theorem Record.adjusted_eq (r : Record) (a : AdjustArgs) :
    r.adjusted a = { r with
      laps := min ((r.laps : Int) + a.laps).toNat 65535,
      netAdjust := max (-255) (min (r.netAdjust + a.laps) 255),
      penalty := min (r.penalty + a.penalty) 4294967295 } := by
  rw [Record.adjusted, clampedLaps_eq]
  rfl

/-- A request that writes one record and no other is taken, and the record is placed anew (R74, R116). -/
theorem State.takeRequest_rewrites {s : State} {k : RequestKind} {args b : List Byte} {serve : State → Served} {slot : Nat}
    {r r' : Record} (hr : s.ready) (hlen : args.length ≤ 32) (htable : s.table.legal) (hrec : s.record? slot = some r)
    (hposition : r'.position = r.position) (hgap : r'.gap = r.gap)
    (h : serve (s.shiftZeros (args.length + 3)) = accept ((s.shiftZeros (args.length + 3)).putRecord slot r') b) :
    Takes s (s.takeRequest k args serve) k args b ∧ KeepsIndex s (s.takeRequest k args serve) ∧
    KeepsLead s (s.takeRequest k args serve) ∧
    Closes ((s.shiftZeros (args.length + 3)).putRecord slot r') (s.takeRequest k args serve) := by
  rw [State.takeRequest_accepted hr hlen h]
  have hrecorded := (Recorded.putRecord (hr.1.framed (args.length + 3)) htable.1 hrec hposition (.inl hgap)).unframed
  obtain ⟨htakes, hindex, hlead⟩ := State.answered_written (k := k) (b := b) hr.1 (.putRecord _ slot r') hrecorded
  exact ⟨htakes, hindex, hlead, State.answered_closes⟩

/-! ## READ RECORD (R67) -/

theorem ReadRecordArgs.length_bytes (a : ReadRecordArgs) : a.bytes.length ≤ 32 := by
  unfold ReadRecordArgs.bytes
  cases a.who <;> simp [putFields]

theorem exec_readRecord {a : ReadRecordArgs} (h : a.who.inRange = true) (s : State) :
    exec (.readRecord a.bytes) s = .next (s.takeRequest .readRecord a.bytes fun s => serveReadRecord s a) :=
  congrArg Host.Outcome.next (State.takeRequest_withArgs .readRecord (ReadRecordArgs.parse_bytes h))

/-- A record is named by its slot, its code or its car number (R53, R58, R67). -/
theorem State.named_of_record {s : State} (h : s.table.legal) {slot : Nat} {r : Record} (hrec : s.record? slot = some r)
    {who : RecordName} (hwho : who = .slot slot ∨ who = .code r.code ∨ who = .car r.car) : s.named who = some slot := by
  obtain ⟨-, -, hheld, -⟩ := s.table.legal_iff.1 h
  rcases hwho with rfl | rfl | rfl
  · rfl
  · exact hheld slot r hrec
  · exact State.carHeldBy_of_record h hrec

/-- A name that no record has is answered NO_SUCH_RECORD (R59, R67). -/
theorem serveReadRecord_none {s : State} (h : s.table.legal) (hroll : s.session.phase ≠ .rolling) {a : ReadRecordArgs}
    (hnone : match a.who with
      | .slot n => s.record? n = none
      | .code c => ∀ n r, s.record? n = some r → r.code ≠ c
      | .car c => ∀ n r, s.record? n = some r → r.car ≠ c) : serveReadRecord s a = refuse s .noSuchRecord := by
  obtain ⟨who, clear⟩ := a
  rw [serveReadRecord, unlessRolling_of_ne hroll]
  cases who with
  | slot n => exact withRecord_none hnone _
  | code c =>
    obtain ⟨-, -, -, hpair, -⟩ := s.table.legal_iff.1 h
    have hfind : s.table.index.find c = none := Option.eq_none_iff_forall_not_mem.2 fun n hn => by
      obtain ⟨r, hr, hcode⟩ := hpair c n hn
      exact hnone n r hr hcode
    simp only [State.named, hfind]
  | car c =>
    have hheld : s.carHeldBy c = none := Option.not_isSome_iff_eq_none.1 fun hsome => by
      obtain ⟨n, r, hr, hcar⟩ := (State.carHeldBy_isSome_iff h.1 c).1 hsome
      exact hnone n r hr hcar
    simp only [State.named, hheld]

/-- Settles O32. -/
theorem adjustAndRead : Obligations.AdjustAndRead := by
  intro s hr htable hroll
  refine ⟨fun a r ha hrec => ?_, fun a slot r ha hrec hwho => ?_, fun a ha hnone => ⟨_, exec_adjust ha s, ?_⟩,
    fun a ha hnone => ⟨_, exec_readRecord ha s, ?_⟩⟩
  · obtain ⟨htakes, hindex, hlead, hcloses⟩ := State.takeRequest_rewrites (k := .adjust) (r' := r.adjusted a)
      (serve := fun s => serveAdjust s a) hr (AdjustArgs.length_bytes a) htable hrec rfl rfl
      (serveRecord_eq hroll hrec _ _)
    refine ⟨_, exec_adjust ha s, ?_, hlead, hindex, hcloses.session.trans (State.putRecord_session ..), hcloses.agrees,
      hcloses.others fun n hn => State.putRecord_record_ne _ _ hn, ?_⟩
    · rw [adjustBody, unsignedOf_two, Record.adjusted_eq] at htakes
      exact htakes
    · rw [← Record.adjusted_eq]
      exact hcloses.onlyPlaced (State.putRecord_record_self ..)
  · have hserve : serveReadRecord (s.shiftZeros (a.bytes.length + 3)) a =
        accept ((s.shiftZeros (a.bytes.length + 3)).putRecord slot (r.readOff a.clear)) (recordBody slot r s.lineCount) := by
      have hnamed : (s.shiftZeros (a.bytes.length + 3)).named a.who = some slot := State.named_of_record htable hrec hwho
      refine (unlessRolling_framed hroll _ _).trans ?_
      rw [hnamed]
      exact withRecord_some (s := s.shiftZeros (a.bytes.length + 3)) hrec _
    have hread : r.readOff a.clear = if a.clear then { r with notices := 0 } else r := rfl
    have hkept : (r.readOff a.clear).position = r.position ∧ (r.readOff a.clear).gap = r.gap ∧
        ∀ ty, orderEntry ty (slot, r.readOff a.clear) = orderEntry ty (slot, r) := by
      rw [hread]
      split <;> exact ⟨rfl, rfl, fun _ => rfl⟩
    obtain ⟨hposition, hgap, hentry⟩ := hkept
    have hagrees := State.orderAgrees.putRecord (s := s.shiftZeros (a.bytes.length + 3)) hr.1.1 htable.1 hrec hentry
      hposition (.inl hgap)
    obtain ⟨htakes, hindex, -, hcloses⟩ := State.takeRequest_rewrites (k := .readRecord)
      (serve := fun s => serveReadRecord s a) hr (ReadRecordArgs.length_bytes a) htable hrec hposition hgap hserve
    obtain ⟨htable', horder'⟩ := State.answered_race (s := s) (k := .readRecord) (b := recordBody slot r s.lineCount)
      hagrees
    rw [← State.takeRequest_accepted hr (ReadRecordArgs.length_bytes a) (serve := fun s => serveReadRecord s a) hserve]
      at htable' horder'
    refine ⟨_, exec_readRecord ha s, ?_, fun hsized => ?_, horder'.trans (State.putRecord_order ..), hindex,
      hcloses.session.trans (State.putRecord_session ..), fun n hn => ?_, ?_⟩
    · rw [recordBody_eq] at htakes
      exact htakes
    · rw [← length_recordBody hsized slot, recordBody_eq]
      rfl
    · rw [State.record?, htable']
      exact State.putRecord_record_ne _ _ hn
    · rw [State.record?, htable']
      exact State.putRecord_record_self ..
  · exact State.takeRequest_refused hr.1 hr.2 (AdjustArgs.length_bytes a) ((unlessRolling_framed hroll _ _).trans
      (withRecord_none (s := s.shiftZeros (a.bytes.length + 3)) hnone _))
  · exact State.takeRequest_refused hr.1 hr.2 (ReadRecordArgs.length_bytes a)
      (serveReadRecord_none (s := s.shiftZeros (a.bytes.length + 3)) htable hroll hnone)

end Sys2Proof.Machine
end

section
/-! The session requests and the expiries of a session (R130 to R143). -/

namespace Sys2Proof.Machine

/-! ## Events that write the session controller alone (R132) -/

/-- An event that leaves the table, the order and the session type as they were, whatever else of the session controller
it writes. -/
structure SessionEvent (s u : State) : Prop where
  table : u.table = s.table
  order : u.order = s.order
  setup : u.session.setup = s.session.setup
  news : KeepsNews s u
  timer : KeepsTimer s u

theorem SessionEvent.of_setSession (s : State) {c : Session} (hc : c.setup = s.session.setup) :
    SessionEvent s (s.setSession c) := ⟨rfl, rfl, hc, ⟨rfl, rfl, rfl⟩, rfl, rfl⟩

section
variable {s u : State}

theorem SessionEvent.agrees (h : SessionEvent s u) (hs : s.orderAgrees) : u.orderAgrees := by
  unfold State.orderAgrees
  rw [h.table, h.order, State.keyType_of_setup h.setup]
  exact hs

theorem SessionEvent.reorder (h : SessionEvent s u) (hs : s.orderAgrees) : u.reorder = u :=
  State.reorder_of_agrees (h.agrees hs)

/-- What such an event leaves: the table and the order as they were, and SESSION where an item changed. -/
theorem SessionEvent.closed (h : SessionEvent s u) (hs : s.settled) :
    (closeEvent s u).table = s.table ∧ (closeEvent s u).order = s.order ∧
    Reports s (closeEvent s u) (if u.sessionItems = s.sessionItems then [] else [.session]) := by
  obtain ⟨hrace, horder⟩ := closeEvent_race_of_agrees (s := s) (h.agrees hs.1)
  refine ⟨hrace.trans h.table, horder.trans h.order, ?_⟩
  obtain ⟨causes, latch, he, hcauses, hlatch⟩ := closeEvent_eq s u
  obtain ⟨hchanged, hbefore, hheld⟩ := h.news
  rw [h.reorder hs.1] at he hcauses hlatch
  rw [he]
  refine ⟨hchanged, fun c => (hcauses c).trans ?_, ?_, h.timer⟩
  · rw [hchanged, hbefore]
    cases c with
    | records => rw [if_pos rfl, ← hs.2.hasCause_records]; split <;> simp
    | session => split <;> simp_all
    | order | loops | time | unknown =>
      rw [if_neg (by simp)]
      split <;> simp
  · rw [LatchFollows, ← hheld]
    exact hlatch

/-- An event that changed no record and not the order tells the reporting unit of the session items alone. -/
theorem Follows.of_reports {s t : State} {raised : List Cause} (hl : s.report.legal) (htable : t.table = s.table)
    (horder : t.order = s.order)
    (h : Reports s t (if t.sessionItems = s.sessionItems then raised else .session :: raised)) : Follows s t raised := by
  obtain ⟨hchanged, hraises, hlatch, htimer⟩ := h
  have hrec : ∀ n, t.record? n = s.record? n := fun n => by rw [State.record?, htable, State.record?]
  refine ⟨fun n => by simp [hchanged, hrec], fun c => (hraises c).trans ?_, hlatch, htimer⟩
  cases c with
  | records =>
    rw [hchanged, hl.hasCause_records]
    split <;> cases s.report.changed <;> simp
  | session => split <;> simp [*]
  | order => split <;> simp [horder]
  | loops | time | unknown => split <;> simp

theorem SessionEvent.follows (h : SessionEvent s u) (hs : s.settled) : Follows s (closeEvent s u) [] := by
  obtain ⟨htable, horder, hreports⟩ := h.closed hs
  refine .of_reports hs.2 htable horder ?_
  have hitems : (closeEvent s u).sessionItems = u.sessionItems := by
    simp only [State.sessionItems, State.countIn, htable, h.table, (closeEvent_closes s u).session]
  rwa [hitems]

end

/-- An event that writes another session controller, and nothing else (R132). -/
theorem closeEvent_setSession {s : State} (hs : s.settled) {c : Session} (hc : c.setup = s.session.setup)
    (hne : c ≠ s.session) :
    (closeEvent s (s.setSession c)).session = c ∧ (closeEvent s (s.setSession c)).table = s.table ∧
    (closeEvent s (s.setSession c)).order = s.order ∧ KeepsTrackside s (closeEvent s (s.setSession c)) ∧
    KeepsQueue s (closeEvent s (s.setSession c)) ∧ KeepsPort s (closeEvent s (s.setSession c)) ∧
    Reports s (closeEvent s (s.setSession c)) [.session] := by
  obtain ⟨htable, horder, hreports⟩ := (SessionEvent.of_setSession s hc).closed hs
  obtain ⟨htime, hlinks, hcircuit, hsession, hdraws, hpending, -⟩ := closeEvent_blocks s (s.setSession c)
  rw [if_neg fun h => hne (congrArg Prod.fst h)] at hreports
  exact ⟨hsession, htable, horder, ⟨htime, hlinks, hcircuit⟩, ⟨hpending, hdraws⟩, closeEvent_keepsPort ..,
    hreports⟩

/-! ## Laps flagged (R135, R138) -/

/-- Records rewritten under the key, the position and the gap they had leave the order list as it was (R116). -/
theorem State.orderAgrees.updAll {s : State} (h : s.orderAgrees) {f : Nat → Record → Record}
    (hentry : ∀ ty n r, orderEntry ty (n, f n r) = orderEntry ty (n, r)) (hposition : ∀ n r, (f n r).position = r.position)
    (hgap : ∀ n r, (f n r).gap = r.gap) : (s.updAll f).orderAgrees := by
  obtain ⟨hlist, hplaces⟩ := h
  rw [State.updAll_eq]
  refine ⟨hlist.trans ?_, fun p hp => ?_⟩
  · have hentries : orderEntries s.keyType (s.table.records.mapVals f) = orderEntries s.keyType s.table.records := by
      rw [orderEntries_eq, orderEntries_eq, KeyMap.mapVals, List.filterMap_map]
      exact List.filterMap_congr fun p _ => hentry _ p.1 p.2
    change _ = orderOf s.keyType (s.table.records.mapVals f)
    rw [orderOf, orderOf, hentries]
  · obtain ⟨q, hq, rfl⟩ := List.mem_map.1 hp
    dsimp only
    rw [hposition, hgap]
    exact hplaces q hq

/-- A record with a flag on its lap, where it has one in progress. -/
def Record.flagLap (f : LapFlag) (r : Record) : Record :=
  if inProgress r.state then { r with lapFlags := addLap r.lapFlags f } else r

section
variable (f : LapFlag) (r : Record)

theorem Record.flagLap_position : (r.flagLap f).position = r.position := by unfold Record.flagLap; split <;> rfl

theorem Record.flagLap_gap : (r.flagLap f).gap = r.gap := by unfold Record.flagLap; split <;> rfl

theorem Record.flagLap_state : (r.flagLap f).state = r.state := by unfold Record.flagLap; split <;> rfl

theorem Record.flagLap_orderEntry (ty : SessionType) (n : Nat) :
    orderEntry ty (n, r.flagLap f) = orderEntry ty (n, r) := by unfold Record.flagLap; split <;> rfl

end

theorem State.flagLaps_eq (s : State) (f : LapFlag) : s.flagLaps f = s.updAll fun _ r => r.flagLap f := rfl

theorem State.flagLaps_record (s : State) (f : LapFlag) (n : Nat) :
    (s.flagLaps f).record? n = (s.record? n).map fun r => r.flagLap f := by simp [State.flagLaps_eq]

theorem State.flagLaps_beside (s : State) (f : LapFlag) : KeepsBeside s (s.flagLaps f) := by
  rw [State.flagLaps, State.updAll_eq]
  exact ⟨⟨rfl, rfl, rfl⟩, ⟨rfl, rfl⟩, ⟨rfl, rfl, rfl, rfl, rfl⟩, ⟨rfl, rfl, rfl, rfl⟩, rfl, rfl⟩

theorem State.flagLaps_order (s : State) (f : LapFlag) : (s.flagLaps f).order = s.order := by
  rw [State.flagLaps, State.updAll_eq]

theorem State.orderAgrees.flagLaps {s : State} (h : s.orderAgrees) (f : LapFlag) : (s.flagLaps f).orderAgrees :=
  h.updAll (fun ty n r => r.flagLap_orderEntry f ty n) (fun _ r => r.flagLap_position f) fun _ r => r.flagLap_gap f

theorem State.flagLaps_fieldIn (s : State) (f : LapFlag) : FieldIn (s.flagLaps f) ↔ FieldIn s := by
  simp [FieldIn, State.flagLaps_record, Record.flagLap_state]

theorem Recorded.flagLaps {s : State} (hs : s.settled) (hw : s.table.records.wf) (f : LapFlag) :
    Recorded s (s.flagLaps f) [] :=
  .updAll hs hw rfl rfl rfl (by simp [RaisesOnly]) rfl ⟨rfl, rfl⟩ (fun _ r => r.flagLap_position f)
    fun _ r => r.flagLap_gap f

/-! ## The chequer and the expiry of the time limit (R139, R141, R142) -/

theorem State.closeTimeout_eq (s : State) :
    s.closeTimeout = (s.session.setup.map (·.closeTimeout)).getD 0 * 60000000 := by
  unfold State.closeTimeout
  cases s.session.setup with
  | none => simp
  | some c => simp [Config.perMinute]

theorem Session.chequer_eq (s : State) (cause : ChequerCause) (slot : Option Nat) :
    s.session.chequer s.now cause slot =
      { s.session with
        phase := .chequered, chequerTime := some s.now, chequerCause := some cause, chequerSlot := slot,
        finishPending := false, timeLimitExpiry := none, closeExpiry := some (s.now + s.closeTimeout) } := by
  rw [State.closeTimeout_eq]
  rfl

theorem State.enterChequered_fieldIn (s : State) (cause : ChequerCause) (slot : Option Nat) :
    s.enterChequered cause slot = (s.setSession (s.session.chequer s.now cause slot)).fieldIn := by
  rw [Session.chequer_eq]
  rfl

theorem State.fieldIn_eq (s : State) : s.fieldIn = s.setSession s.fieldIn.session := by
  unfold State.fieldIn
  split <;> rfl

theorem State.enterChequered_eq (s : State) (cause : ChequerCause) (slot : Option Nat) :
    s.enterChequered cause slot = s.setSession (s.enterChequered cause slot).session :=
  State.fieldIn_eq _

theorem State.fieldIn_setup (s : State) : s.fieldIn.session.setup = s.session.setup := by
  unfold State.fieldIn
  split <;> rfl

theorem State.enterChequered_setup (s : State) (cause : ChequerCause) (slot : Option Nat) :
    (s.enterChequered cause slot).session.setup = s.session.setup := State.fieldIn_setup _

/-- The chequer leaves the session CHEQUERED, or CLOSED with the field in (R141, R142). -/
theorem State.enterChequered_ends {s : State} (hw : s.table.records.wf) (cause : ChequerCause) (slot : Option Nat) :
    EndsAs (s.enterChequered cause slot) (s.session.chequer s.now cause slot) := by
  have hfield : FieldIn (s.enterChequered cause slot) ↔ FieldIn s := by
    rw [State.enterChequered_eq]
    exact Iff.rfl
  unfold EndsAs
  rw [hfield, State.enterChequered_fieldIn]
  exact State.fieldIn_session (s := s.setSession (s.session.chequer s.now cause slot)) hw rfl

theorem EndsAs.congr {s t : State} {c : Session} (h : EndsAs s c) (hfield : FieldIn t ↔ FieldIn s)
    (hsession : t.session = s.session) : EndsAs t c := by
  unfold EndsAs
  rw [hfield, hsession]
  exact h

theorem State.keyType_of_setup_some {s : State} {c : SessionSetup} (h : s.session.setup = some c) : s.keyType = c.type := by
  unfold State.keyType
  rw [h]

theorem State.timeLimitHappens_race {s : State} (h : s.keyType = .race) :
    s.timeLimitHappens = s.setSession { s.session with timeLimitExpiry := none, finishPending := true } := if_pos h

theorem State.timeLimitHappens_chequers {s : State} (h : s.keyType ≠ .race) :
    s.timeLimitHappens = s.enterChequered .timeLimit none := if_neg h

/-! ## Session requests (R132) -/

section SessionRequest
variable {s : State} {k : RequestKind} {allowed : Phase → Bool} {effect : State → Served}

theorem sessionRequest_eq (hroll : s.session.phase ≠ .rolling) (n : Nat) (b : Bool) (f : State → Served) :
    sessionRequest [] (s.shiftZeros n) b f =
      if b then f (s.shiftZeros n) else refuse (s.shiftZeros n) .wrongState := if_neg hroll

theorem sessionRequest_refused (hr : s.ready) (hroll : s.session.phase ≠ .rolling)
    (h : allowed s.session.phase = false) :
    Refuses s (s.takeRequest k [] fun s => sessionRequest [] s (allowed s.session.phase) effect) k [] .wrongState := by
  refine State.takeRequest_refused hr.1 hr.2 (by simp) ((sessionRequest_eq hroll 3 _ _).trans ?_)
  exact if_neg (Bool.eq_false_iff.1 h)

/-- A request the state allows, which writes the session controller alone. -/
theorem sessionRequest_writes (hr : s.ready) (hroll : s.session.phase ≠ .rolling)
    (h : allowed s.session.phase = true) {c : Session} (hc : c.setup = s.session.setup)
    (heffect : effect (s.shiftZeros 3) = accept ((s.shiftZeros 3).setSession c) []) :
    let t := s.takeRequest k [] fun s => sessionRequest [] s (allowed s.session.phase) effect
    Takes s t k [] [] ∧ t.session = c ∧ t.table = s.table ∧ t.order = s.order := by
  have hserve : sessionRequest [] (s.shiftZeros 3) (allowed s.session.phase) effect =
      accept ((s.shiftZeros 3).setSession c) [] :=
    (sessionRequest_eq hroll 3 _ _).trans ((if_pos h).trans heffect)
  have hevent : SessionEvent s (((s.shiftZeros 3).setSession c).loadReply (some k) .ok []) :=
    ⟨rfl, rfl, hc, ⟨rfl, rfl, rfl⟩, rfl, rfl⟩
  intro t
  have ht : t = s.answered ((s.shiftZeros 3).setSession c) k [] := State.takeRequest_accepted hr (by simp) hserve
  rw [ht]
  obtain ⟨htable, horder, -⟩ := hevent.closed hr.1
  obtain ⟨htime, hlinks, hcircuit, hpending, hdraws⟩ :=
    State.answered_blocks (s := s) (k := k) (b := []) (u := (s.shiftZeros 3).setSession c)
  exact ⟨⟨State.answered_answers (args := []) ⟨rfl, rfl, rfl, rfl, rfl⟩, ⟨htime, hlinks, hcircuit⟩, ⟨hpending, hdraws⟩,
    hevent.follows hr.1⟩, State.answered_closes.session, htable, horder⟩

/-- A request the state allows, which flags the laps in progress beside what it writes of the session controller. -/
theorem sessionRequest_flags (hr : s.ready) (htable : s.table.legal) (hroll : s.session.phase ≠ .rolling)
    (h : allowed s.session.phase = true) {c : Session} (hc : c.setup = s.session.setup) {f : LapFlag}
    (heffect : effect (s.shiftZeros 3) = accept (((s.shiftZeros 3).flagLaps f).setSession c) []) :
    let t := s.takeRequest k [] fun s => sessionRequest [] s (allowed s.session.phase) effect
    Takes s t k [] [] ∧ t.session = c ∧ t.order = s.order ∧ KeepsIndex s t ∧ FlagsLaps s t f := by
  have hserve : sessionRequest [] (s.shiftZeros 3) (allowed s.session.phase) effect =
      accept (((s.shiftZeros 3).flagLaps f).setSession c) [] :=
    (sessionRequest_eq hroll 3 _ _).trans ((if_pos h).trans heffect)
  intro t
  have ht : t = s.answered (((s.shiftZeros 3).flagLaps f).setSession c) k [] :=
    State.takeRequest_accepted hr (by simp) hserve
  have hrecorded : Recorded s (((s.shiftZeros 3).flagLaps f).setSession c) [] :=
    (Recorded.flagLaps (hr.1.framed 3) htable.1 f).unframed.of_same rfl rfl ⟨rfl, rfl, rfl⟩ ⟨rfl, rfl⟩
  have hbeside := (State.flagLaps_beside (s.shiftZeros 3) f).trans (.setSession _ c)
  have hagrees : (((s.shiftZeros 3).flagLaps f).setSession c).orderAgrees :=
    (SessionEvent.of_setSession _ (hc.trans (by rw [State.flagLaps_session]; rfl))).agrees
      (State.orderAgrees.flagLaps (s := s.shiftZeros 3) hr.1.1 f)
  obtain ⟨hrace, horder⟩ := State.answered_race (s := s) (k := k) (b := []) hagrees
  obtain ⟨htakes, hindex, -⟩ := State.answered_written (k := k) (b := []) (args := []) hr.1 hbeside hrecorded
  rw [ht]
  refine ⟨htakes, State.answered_closes.session, horder.trans (State.flagLaps_order _ f), hindex, fun n => ?_⟩
  rw [State.record?, hrace]
  refine (State.flagLaps_record (s.shiftZeros 3) f n).trans (congrArg (Option.map · (s.record? n)) (funext fun r => ?_))
  simp only [Record.flagLap, inProgress_iff]

end SessionRequest

end Sys2Proof.Machine
end

section
/-! GREEN, caution, suspension, the chequer and the close (R134 to R143). -/

namespace Sys2Proof.Machine

/-! ## GREEN and START (R134) -/

/-- The session controller of an ARMED session that goes GREEN (R134). -/
def State.greened (s : State) (source : GreenSource) : Session :=
  { s.session with
    phase := .green, greenTime := some s.now, greenSource := some source,
    timeLimitExpiry := match s.session.setup with
      | some c => if c.timeLimit = 0 then none
        else some (s.now + c.timeLimit * 60000000 + s.session.totalSuspended)
      | none => none }

theorem State.timeLimit_eq (s : State) : s.timeLimit = match s.session.setup with
    | some c => if c.timeLimit = 0 then none else some (c.timeLimit * 60000000)
    | none => none := rfl

theorem State.setTimeLimit_of_future {s : State} {e : Nat} (h : s.now < e) :
    s.setTimeLimit e = s.setSession { s.session with timeLimitExpiry := some e } := if_neg (Nat.not_le.2 h)

theorem State.goGreen_eq {s : State} (hlegal : s.session.legal) (harmed : s.session.phase = .armed)
    (source : GreenSource) : s.goGreen source = s.setSession (s.greened source) := by
  have hnone : s.session.timeLimitExpiry = none := by
    obtain ⟨-, -, -, -, -, hexpiry, -⟩ := hlegal
    simpa [harmed] using hexpiry
  unfold State.goGreen State.greened
  dsimp only
  rw [State.timeLimit_eq]
  cases hsetup : s.session.setup with
  | none => simp [hnone]
  | some c =>
    by_cases hzero : c.timeLimit = 0
    · simp [hzero, hnone]
    · simp only [hzero, if_false]
      rw [State.setTimeLimit_of_future]
      · simp [State.setSession]
      · simp only [State.setSession, State.now]
        omega

/-- Settles O48: GREEN and START write one session controller, `State.greened`. -/
theorem green : Obligations.Green := by
  intro s hs hlegal goes
  have hwrites : s.session.phase = .armed → ∀ source, goes source ≠ s.session := fun harmed source he =>
    nomatch harmed.symm.trans (congrArg Session.phase he).symm
  refine ⟨fun hidle hroll => ⟨_, rfl, fun hne => ?_, fun harmed => ?_⟩, fun hne => ?_, fun harmed => ⟨_, rfl, ?_⟩⟩
  · exact sessionRequest_refused (allowed := (decide <| · = .armed)) ⟨hs, hidle⟩ hroll (decide_eq_false hne)
  · obtain ⟨htakes, hsession, htable, horder⟩ := sessionRequest_writes (k := .green)
      (allowed := (decide <| · = .armed)) (c := goes .request) (effect := fun s => accept (s.goGreen .request) [])
      ⟨hs, hidle⟩ hroll (decide_eq_true harmed) rfl
      (congrArg (accept · []) (State.goGreen_eq (s := s.shiftZeros 3) hlegal harmed .request))
    exact ⟨htakes, hsession, htable, horder⟩
  · exact congrArg Host.Outcome.next (if_neg hne)
  · have hstart : s.startEdge = closeEvent s (s.setSession (goes .start)) :=
      (if_pos harmed).trans (congrArg (closeEvent s) (State.goGreen_eq hlegal harmed .start))
    rw [hstart]
    obtain ⟨hsession, htable, horder, htrackside, hqueue, hport, hreports⟩ :=
      closeEvent_setSession hs (c := goes .start) rfl (hwrites harmed .start)
    exact ⟨hsession, htable, horder, htrackside, hqueue, hport, hreports⟩

/-! ## Caution and suspension (R135 to R137) -/

theorem runningPhase_iff (p : Phase) : runningPhase p = true ↔ p = .green ∨ p = .caution := by
  simp [runningPhase]

theorem State.flagLaps_setSession (s : State) (c : Session) (f : LapFlag) :
    (s.setSession c).flagLaps f = (s.flagLaps f).setSession c := by
  rw [State.flagLaps, State.flagLaps, State.updAll_eq, State.updAll_eq]
  rfl

/-- Settles O49, each request by the rule of session requests. -/
theorem cautionAndSuspend : Obligations.CautionAndSuspend := by
  intro s hr htable hroll
  refine ⟨⟨_, rfl, fun hne => ?_, fun hgreen => ?_⟩, ⟨_, rfl, fun hne => ?_, fun hcaution => ?_⟩,
    ⟨_, rfl, fun hgreen hcaution => ?_, fun hrunning => ?_⟩⟩
  · exact sessionRequest_refused (allowed := (decide <| · = .green)) hr hroll (decide_eq_false hne)
  · obtain ⟨htakes, hsession, horder, hindex, hflags⟩ := sessionRequest_flags (k := .caution)
      (allowed := (decide <| · = .green)) (f := .caution) (c := { s.session with phase := .caution })
      (effect := fun s => accept s.goCaution []) hr htable hroll
      (decide_eq_true hgreen) rfl (congrArg (accept · []) (State.flagLaps_setSession (s.shiftZeros 3) _ .caution))
    exact ⟨htakes, hsession, horder, hindex, hflags⟩
  · exact sessionRequest_refused (allowed := (decide <| · = .caution)) hr hroll (decide_eq_false hne)
  · obtain ⟨htakes, hsession, hrace, horder⟩ := sessionRequest_writes (k := .clearCaution)
      (allowed := (decide <| · = .caution)) (c := { s.session with phase := .green })
      (effect := fun s => accept (s.setSession { s.session with phase := .green }) []) hr hroll
      (decide_eq_true hcaution) rfl rfl
    exact ⟨htakes, hsession, horder, hrace⟩
  · refine sessionRequest_refused (allowed := runningPhase) hr hroll (Bool.eq_false_iff.2 fun h => ?_)
    exact ((runningPhase_iff _).1 h).elim hgreen hcaution
  · obtain ⟨htakes, hsession, hrace, horder⟩ := sessionRequest_writes (k := .suspend) (allowed := runningPhase)
      (c := s.goSuspended.session) (effect := fun s => accept s.goSuspended []) hr hroll
      ((runningPhase_iff _).2 hrunning) rfl rfl
    exact ⟨htakes, hsession, horder, hrace⟩

end Sys2Proof.Machine
end

section
/-! The end of a suspension, the time limit, the chequer and the close (R138 to R143). -/

namespace Sys2Proof.Machine

/-! ## The end of a suspension (R138) -/

theorem State.endSuspension_eq (s : State) (back : Phase) :
    s.endSuspension.setSession { s.endSuspension.session with phase := back } =
      s.setSession (s.session.unsuspend s.now back) := by
  unfold State.endSuspension Session.unsuspend
  cases hsuspension : s.session.suspension with
  | none => simp [State.setSession]
  | some p => simp [State.setSession]

theorem FieldIn.of_table {s t : State} (h : t.table = s.table) : FieldIn t ↔ FieldIn s := by
  simp only [FieldIn, State.record?, h]

theorem FlagsLaps.fieldIn {s t : State} {f : LapFlag} (h : FlagsLaps s t f) : FieldIn t ↔ FieldIn s := by
  have hstate : ∀ r : Record,
      (if r.state = .running ∨ r.state = .pit then { r with lapFlags := addLap r.lapFlags f } else r).state = r.state :=
    fun r => by split <;> rfl
  have hfield : ∀ n, t.record? n = _ := h
  simp only [FieldIn, hfield, Option.map_eq_some_iff]
  refine ⟨fun hall n r hr => ?_, ?_⟩
  · have hout := hall n _ ⟨r, hr, rfl⟩
    rwa [hstate] at hout
  · rintro hall n _ ⟨r, hr, rfl⟩
    rw [hstate]
    exact hall n r hr

/-! ## The time limit set again (R138, R139) -/

theorem State.timeLimitHappens_eq (s : State) : s.timeLimitHappens = s.setSession s.timeLimitHappens.session := by
  by_cases h : s.keyType = .race
  · rw [State.timeLimitHappens_race h]
    rfl
  · rw [State.timeLimitHappens_chequers h]
    exact State.enterChequered_eq s _ _

theorem State.fieldIn_timeLimitExpiry (s : State) : s.fieldIn.session.timeLimitExpiry = s.session.timeLimitExpiry := by
  unfold State.fieldIn
  split <;> rfl

theorem State.timeLimitHappens_expiry (s : State) : s.timeLimitHappens.session.timeLimitExpiry = none := by
  by_cases h : s.keyType = .race
  · rw [State.timeLimitHappens_race h]
    rfl
  · rw [State.timeLimitHappens_chequers h]
    exact State.fieldIn_timeLimitExpiry _

theorem State.timeLimitHappens_setup (s : State) : s.timeLimitHappens.session.setup = s.session.setup := by
  by_cases h : s.keyType = .race
  · rw [State.timeLimitHappens_race h]
    rfl
  · rw [State.timeLimitHappens_chequers h]
    exact State.enterChequered_setup s _ _

theorem State.setTimeLimit_of_reached {s : State} {e : Nat} (h : e ≤ s.now) :
    s.setTimeLimit e = (s.setSession { s.session with timeLimitExpiry := some e }).timeLimitHappens := if_pos h

theorem State.setTimeLimit_eq (s : State) (e : Nat) :
    s.setTimeLimit e = s.setSession (s.setTimeLimit e).session ∧
    (s.setTimeLimit e).session.setup = s.session.setup := by
  by_cases h : e ≤ s.now
  · rw [State.setTimeLimit_of_reached h]
    exact ⟨State.timeLimitHappens_eq _, State.timeLimitHappens_setup _⟩
  · rw [State.setTimeLimit_of_future (Nat.lt_of_not_le h)]
    exact ⟨rfl, rfl⟩

theorem State.restoreTimeLimit_eq (s : State) :
    s.restoreTimeLimit = s.setSession s.restoreTimeLimit.session ∧ s.restoreTimeLimit.session.setup = s.session.setup := by
  unfold State.restoreTimeLimit
  split
  · split
    · exact ⟨rfl, rfl⟩
    · exact State.setTimeLimit_eq _ _
  · exact ⟨rfl, rfl⟩

theorem State.restoreTimeLimit_none {s : State} (h : s.timeLimit = none ∨ s.session.finishPending = true) :
    s.restoreTimeLimit = s := by
  unfold State.restoreTimeLimit
  rcases h with h | h
  · rw [h]
  · rw [h]
    split <;> rfl

theorem State.restoreTimeLimit_some {s : State} {n : Nat} (h : s.timeLimit = some n) (hf : s.session.finishPending = false) :
    s.restoreTimeLimit = s.setTimeLimit (s.session.greenTime.getD 0 + n + s.session.totalSuspended) := by
  unfold State.restoreTimeLimit
  rw [h, hf]
  rfl

theorem State.goResumed_eq {s : State} {back : Phase} (h : s.session.resumeState = some back) :
    s.goResumed = ((s.flagLaps .suspended).setSession (s.session.unsuspend s.now back)).restoreTimeLimit := by
  unfold State.goResumed
  dsimp only
  rw [h, Option.getD_some, State.endSuspension_eq, State.flagLaps_setSession]

/-- The time limit set again, in each of its cases (R138, R139). -/
theorem State.restoreTimeLimit_cases {v : State} (hw : v.table.records.wf) {setup : SessionSetup} {g : Nat}
    (hsetup : v.session.setup = some setup) (hg : v.session.greenTime = some g)
    (hnone : v.session.timeLimitExpiry = none) :
    let expiry := g + setup.timeLimit * 60000000 + v.session.totalSuspended
    (setup.timeLimit = 0 ∨ v.session.finishPending = true → v.restoreTimeLimit.session = v.session) ∧
    (setup.timeLimit ≠ 0 → v.session.finishPending = false →
      (v.now < expiry → v.restoreTimeLimit.session = { v.session with timeLimitExpiry := some expiry }) ∧
      (expiry ≤ v.now → setup.type = .race → v.restoreTimeLimit.session = { v.session with finishPending := true }) ∧
      (expiry ≤ v.now → setup.type ≠ .race → EndsAs v.restoreTimeLimit (v.session.chequer v.now .timeLimit none))) := by
  intro expiry
  have hlimit : v.timeLimit = if setup.timeLimit = 0 then none else some (setup.timeLimit * 60000000) := by
    rw [State.timeLimit_eq, hsetup]
  refine ⟨fun h => ?_, fun hlim hpending => ?_⟩
  · rw [State.restoreTimeLimit_none (h.imp_left fun h => by rw [hlimit, if_pos h])]
  · have hrestore : v.restoreTimeLimit = v.setTimeLimit expiry :=
      (State.restoreTimeLimit_some (by rw [hlimit, if_neg hlim]) hpending).trans (by rw [hg]; rfl)
    let due := v.setSession { v.session with timeLimitExpiry := some expiry }
    have hkey : due.keyType = setup.type := State.keyType_of_setup_some hsetup
    rw [hrestore]
    refine ⟨fun hfuture => ?_, fun hreached hrace => ?_, fun hreached hrace => ?_⟩
    · rw [State.setTimeLimit_of_future hfuture]
      rfl
    · rw [State.setTimeLimit_of_reached hreached, State.timeLimitHappens_race (s := due) (hkey.trans hrace)]
      exact congrArg (fun e => { v.session with timeLimitExpiry := e, finishPending := true }) hnone.symm
    · rw [State.setTimeLimit_of_reached hreached,
        State.timeLimitHappens_chequers (s := due) fun h => hrace (hkey.symm.trans h)]
      exact State.enterChequered_ends (s := due) hw .timeLimit none

/-- Settles O50: the laps are flagged and the time limit is set again, in each of its cases. -/
theorem resume : Obligations.Resume := by
  intro s hr htable hlegal hroll
  refine ⟨_, rfl, fun hne => ?_, fun hsus back g setup hback hg hsetup => ?_⟩
  · exact sessionRequest_refused (allowed := (decide <| · = .suspended)) hr hroll (decide_eq_false hne)
  · let v := ((s.shiftZeros 3).flagLaps .suspended).setSession (s.session.unsuspend s.now back)
    have hgo : (s.shiftZeros 3).goResumed = ((s.shiftZeros 3).flagLaps .suspended).setSession v.restoreTimeLimit.session :=
      (State.goResumed_eq (s := s.shiftZeros 3) hback).trans (State.restoreTimeLimit_eq v).1
    obtain ⟨htakes, hsession, horder, hindex, hflags⟩ := sessionRequest_flags (k := .resume)
      (allowed := (decide <| · = .suspended)) (f := .suspended) (c := v.restoreTimeLimit.session)
      (effect := fun s => accept s.goResumed []) hr htable hroll (decide_eq_true hsus) (State.restoreTimeLimit_eq v).2
      (congrArg (accept · []) hgo)
    have hnow : v.now = s.now := congrArg TimeBase.now (State.flagLaps_beside (s.shiftZeros 3) .suspended).trackside.1
    have hexpiry : s.session.timeLimitExpiry = none := by
      obtain ⟨-, -, -, -, -, hrunning, -⟩ := hlegal
      simpa [hsus] using hrunning
    have hfield : FieldIn v.restoreTimeLimit ↔ FieldIn s := by
      rw [(State.restoreTimeLimit_eq v).1]
      exact State.flagLaps_fieldIn (s.shiftZeros 3) .suspended
    have hcases := State.restoreTimeLimit_cases (v := v)
      (Recorded.flagLaps (hr.1.framed 3) htable.1 .suspended).wf hsetup hg hexpiry
    rw [hnow, ← hsession] at hcases
    obtain ⟨hnone, hsome⟩ := hcases
    refine ⟨htakes, horder, hindex, hflags, hnone, fun hlim hpending => ?_⟩
    obtain ⟨hfuture, hrace, hends⟩ := hsome hlim hpending
    exact ⟨hfuture, hrace, fun hreached hother =>
      (hends hreached hother).congr (hflags.fieldIn.trans hfield.symm) hsession⟩

/-! ## The chequer and the close by request (R141, R143) -/

theorem State.goChequered_running {s : State} (h : s.session.phase ≠ .suspended) :
    s.goChequered = s.enterChequered .request none := if_neg h

theorem State.goChequered_suspended {s : State} (h : s.session.phase = .suspended) :
    s.goChequered =
      ((s.flagLaps .suspended).setSession (s.session.unsuspend s.now .chequered)).enterChequered .request none := by
  have hflags : s.endSuspension.flagLaps .suspended = (s.flagLaps .suspended).setSession s.endSuspension.session :=
    State.flagLaps_setSession s s.endSuspension.session .suspended
  have hended : { s.endSuspension.session with phase := .chequered } = s.session.unsuspend s.now .chequered :=
    congrArg State.session (s.endSuspension_eq .chequered)
  rw [State.goChequered, if_pos h, hflags, ← hended]
  rfl

theorem State.goClosed_eq (s : State) : s.goClosed = s.setSession
    { (if s.session.phase = .suspended then s.session.unsuspend s.now .closed else s.session).shut with
      timeLimitExpiry := none, finishPending := false } := by
  unfold State.goClosed
  dsimp only
  by_cases h : s.session.phase = .suspended
  · rw [if_pos h, if_pos h]
    have hend := congrArg (fun v : State => v.setSession
      { v.session with phase := .closed, closeExpiry := none, locked := false, timeLimitExpiry := none,
                       finishPending := false }) (s.endSuspension_eq .closed)
    exact hend
  · rw [if_neg h, if_neg h]
    rfl

/-- Settles O51: the chequer and the close write the session controller, beside the laps a suspension flags. -/
theorem chequerAndClose : Obligations.ChequerAndClose := by
  intro s hs htable hlegal asked running kept
  refine ⟨fun ⟨hidle, hroll⟩ => ⟨_, rfl, fun hrun hsus => ?_, fun hrun => ?_, fun hsus => ?_⟩,
    fun ⟨hidle, hroll⟩ => ⟨_, rfl, fun hnot => ?_, ?_⟩, fun e setup he hreached hsetup => ⟨_, rfl, ?_⟩,
    fun e hphase he hreached => ⟨_, rfl, ?_⟩⟩
  · refine sessionRequest_refused (allowed := fun p => runningPhase p || decide (p = .suspended)) ⟨hs, hidle⟩ hroll ?_
    rw [Bool.or_eq_false_iff]
    exact ⟨Bool.eq_false_iff.2 fun h => hrun ((runningPhase_iff _).1 h), decide_eq_false hsus⟩
  · have hgo : (s.shiftZeros 3).goChequered = (s.shiftZeros 3).enterChequered .request none :=
      State.goChequered_running fun h : s.session.phase = _ => by
        rcases hrun with hrun | hrun <;> exact nomatch hrun.symm.trans h
    obtain ⟨htakes, hsession, hrace, horder⟩ := sessionRequest_writes (k := .chequer)
      (allowed := fun p => runningPhase p || decide (p = .suspended))
      (c := ((s.shiftZeros 3).enterChequered .request none).session)
      (effect := fun s => accept s.goChequered []) ⟨hs, hidle⟩ hroll
      (by rw [(runningPhase_iff _).2 hrun, Bool.true_or]) (State.enterChequered_setup _ _ _)
      (congrArg (accept · []) (hgo.trans (State.enterChequered_eq _ _ _)))
    refine ⟨htakes, horder, hrace, (State.enterChequered_ends (s := s.shiftZeros 3) htable.1 .request none).congr ?_ hsession⟩
    exact (FieldIn.of_table hrace).trans (FieldIn.of_table (State.enterChequered_table (s.shiftZeros 3) _ _)).symm
  · let v := ((s.shiftZeros 3).flagLaps .suspended).setSession (s.session.unsuspend s.now .chequered)
    have hnow : v.now = s.now := congrArg TimeBase.now (State.flagLaps_beside (s.shiftZeros 3) .suspended).trackside.1
    obtain ⟨htakes, hsession, horder, hindex, hflags⟩ := sessionRequest_flags (k := .chequer)
      (allowed := fun p => runningPhase p || decide (p = .suspended)) (f := .suspended)
      (c := (v.enterChequered .request none).session) (effect := fun s => accept s.goChequered []) ⟨hs, hidle⟩ htable hroll
      (by rw [hsus]; rfl) (State.enterChequered_setup v _ _)
      (congrArg (accept · [])
        ((State.goChequered_suspended (s := s.shiftZeros 3) hsus).trans (State.enterChequered_eq v _ _)))
    have hends := State.enterChequered_ends (s := v) (Recorded.flagLaps (hs.framed 3) htable.1 .suspended).wf .request none
    rw [hnow] at hends
    refine ⟨htakes, horder, hindex, hflags, hends.congr ?_ hsession⟩
    exact hflags.fieldIn.trans ((FieldIn.of_table (State.enterChequered_table v _ _)).trans
      (State.flagLaps_fieldIn (s.shiftZeros 3) .suspended)).symm
  · refine sessionRequest_refused (allowed := underWay) ⟨hs, hidle⟩ hroll ?_
    rcases hnot with h | h <;> rw [h] <;> rfl
  · have hcloses := fun c (hc : c = (if s.session.phase = .suspended then s.session.unsuspend s.now .closed else s.session))
        (hway : underWay s.session.phase = true) => sessionRequest_writes (k := .close) (allowed := underWay)
      (c := { c.shut with timeLimitExpiry := none, finishPending := false })
      (effect := fun s => accept s.goClosed []) ⟨hs, hidle⟩ hroll hway
      (by subst hc; dsimp only [Session.shut]; split <;> rfl)
      (by subst hc; exact congrArg (accept · []) (State.goClosed_eq (s.shiftZeros 3)))
    refine ⟨fun hway => ?_, fun hsus => ?_⟩
    · have hphase : underWay s.session.phase = true ∧ s.session.phase ≠ .suspended := by
        rcases hway with h | (h | h) | h <;> rw [h] <;> simp [underWay]
      obtain ⟨htakes, hsession, hrace, horder⟩ := hcloses s.session (if_neg hphase.2).symm hphase.1
      exact ⟨htakes, horder, hrace, hsession⟩
    · obtain ⟨htakes, hsession, hrace, horder⟩ := hcloses _ (if_pos hsus).symm (by rw [hsus]; rfl)
      exact ⟨htakes, horder, hrace, hsession⟩
  · have hphase : s.session.phase = .green ∨ s.session.phase = .caution := by
      obtain ⟨-, -, -, -, -, hexpiry, -⟩ := hlegal
      exact hexpiry (by rw [he]; rfl)
    have hdue : s.timeLimitExpiry = closeEvent s (s.setSession s.timeLimitHappens.session) := by
      rw [← State.timeLimitHappens_eq]
      refine if_pos ?_
      rw [State.timeLimitDue, (runningPhase_iff _).2 hphase, he]
      exact decide_eq_true hreached
    have hne : s.timeLimitHappens.session ≠ s.session := fun h =>
      nomatch he.symm.trans ((congrArg Session.timeLimitExpiry h).symm.trans s.timeLimitHappens_expiry)
    obtain ⟨hsession, hrace, horder, htrackside, hqueue, hport, hreports⟩ :=
      closeEvent_setSession hs s.timeLimitHappens_setup hne
    rw [hdue]
    refine ⟨⟨horder, htrackside, hqueue, hport, hrace, hreports⟩, fun htype => ?_, fun htype => ?_⟩
    · rw [hsession, State.timeLimitHappens_race ((State.keyType_of_setup_some hsetup).trans htype)]
      rfl
    · have hchequers := State.timeLimitHappens_chequers fun h => htype ((State.keyType_of_setup_some hsetup).symm.trans h)
      refine (State.enterChequered_ends (s := s) htable.1 .timeLimit none).congr ?_ (by rw [hsession, hchequers])
      exact (FieldIn.of_table hrace).trans (FieldIn.of_table (State.enterChequered_table s _ _)).symm
  · have hdue : s.closeTimeoutExpiry = closeEvent s (s.setSession s.session.shut) := by
      refine if_pos ?_
      rw [State.closeTimeoutDue, he, hphase]
      exact decide_eq_true hreached
    obtain ⟨hsession, hrace, horder, htrackside, hqueue, hport, hreports⟩ :=
      closeEvent_setSession hs (c := s.session.shut) rfl fun h =>
        nomatch hphase.symm.trans (congrArg Session.phase h).symm
    rw [hdue]
    exact ⟨⟨horder, htrackside, hqueue, hport, hrace, hreports⟩, hsession⟩

end Sys2Proof.Machine
end

section
/-! SESSION SETUP and ARM (R15, R130, R133). -/

namespace Sys2Proof.Machine

/-! ## What ARM asks of the map, the setup and the records (R15, R133) -/

theorem State.linkList_eq (s : State) : s.linkList = (List.finRange 8).map fun l => (l, s.link l) := rfl

theorem Link.held_of_legal {k : Link} (h : k.legal) : k.held = k.linePos := by
  obtain ⟨hline, -⟩ := h
  unfold Link.held
  split
  · rfl
  · rename_i hrole
    exact (Option.not_isSome_iff_eq_none.1 fun hsome => hrole (hline.2 hsome)).symm

section LineMap
variable {s : State}

theorem State.heldPositions_eq (h : ∀ l, (s.link l).legal) :
    s.heldPositions = (List.finRange 8).filterMap fun l => (s.link l).linePos := by
  rw [State.heldPositions, State.linkList_eq, List.filterMap_map]
  exact List.filterMap_congr fun l _ => Link.held_of_legal (h l)

theorem count_filterMap_eq_one_iff {α : Type} {xs : List α} (hn : xs.Nodup) (f : α → Option Nat) (p : Nat) :
    (xs.filterMap f).count p = 1 ↔ ∃ a ∈ xs, f a = some p ∧ ∀ b ∈ xs, f b = some p → b = a := by
  have hcount : (xs.filterMap f).count p = (xs.filter fun a => f a == some p).length := by
    rw [List.count_filterMap, List.countP_eq_length_filter]
  rw [hcount]
  constructor
  · intro h
    obtain ⟨a, ha⟩ := List.length_eq_one_iff.1 h
    have hmem : ∀ b, b ∈ xs ∧ f b = some p ↔ b = a := fun b => by
      rw [← List.mem_singleton (b := a), ← ha, List.mem_filter, beq_iff_eq]
    obtain ⟨hin, hfa⟩ := (hmem a).2 rfl
    exact ⟨a, hin, hfa, fun b hb hfb => (hmem b).1 ⟨hb, hfb⟩⟩
  · rintro ⟨a, ha, hfa, hall⟩
    have hperm : (xs.filter fun a => f a == some p).Perm [a] :=
      (List.perm_ext_iff_of_nodup (hn.filter _) (List.nodup_singleton a)).2 fun b => by
        rw [List.mem_filter, beq_iff_eq, List.mem_singleton]
        exact ⟨fun hb => hall b hb.1 hb.2, fun hb => hb ▸ ⟨ha, hfa⟩⟩
    exact hperm.length_eq

theorem State.lineMapValid_iff (h : ∀ l, (s.link l).legal) : s.lineMapValid = true ↔
    (∃ l, (s.link l).role = .line) ∧
    ∀ p, p < s.lineCount → ∃ l, (s.link l).linePos = some p ∧ ∀ j, (s.link j).linePos = some p → j = l := by
  rw [State.lineMapValid, Bool.and_eq_true, State.heldPositions_eq h]
  refine and_congr ?_ ?_
  · have hrole : ∀ l, (s.link l).role = .line ↔ ∃ p, (s.link l).linePos = some p := fun l =>
      (h l).1.trans Option.isSome_iff_exists
    simp only [hrole, Bool.not_eq_true', List.isEmpty_eq_false_iff_exists_mem, List.mem_filterMap, List.mem_finRange,
      true_and]
    exact exists_comm
  · simp only [List.all_eq_true, List.mem_range, beq_iff_eq, count_filterMap_eq_one_iff (List.nodup_finRange 8),
      List.mem_finRange, true_and, true_implies]

theorem State.pitValid_iff : s.pitValid = true ↔
    ((∃ l, (s.link l).role = .pitIn ∨ (s.link l).role = .pitOut) →
      ∃ c ∈ s.circuit.pit, c.inAfter < s.lineCount ∧ c.outBefore < s.lineCount) := by
  have hlink : s.hasPitLink = true ↔ ∃ l, (s.link l).role = .pitIn ∨ (s.link l).role = .pitOut := by
    rw [State.hasPitLink, State.linkList_eq]
    simp
  rw [← hlink, State.pitValid]
  cases s.hasPitLink with
  | false => simp
  | true =>
    cases s.circuit.pit with
    | none => simp
    | some c => simp

theorem State.setupFits_iff : s.setupFits = true ↔
    ∃ c ∈ s.session.setup, c.type = .race ∨ c.lapLimit = 0 ∧ c.timeLimit ≠ 0 := by
  unfold State.setupFits
  cases s.session.setup with
  | none => simp
  | some c => simp [SessionSetup.consistent]

theorem State.numbersCurrent_iff (hw : s.table.records.wf) :
    s.numbersCurrent = true ↔ ∀ n r, s.record? n = some r → r.session = s.session.number := by
  simp only [State.numbersCurrent, List.all_eq_true, decide_eq_true_eq]
  exact ⟨fun h n r hr => h (n, r) (KeyMap.find_mem hr), fun h p hp => h p.1 p.2 (KeyMap.find_of_mem hw hp)⟩

end LineMap

theorem State.canArm_iff {s : State} (hw : s.table.records.wf) (h : ∀ l, (s.link l).legal) : s.canArm = true ↔
    (∃ c ∈ s.session.setup, c.type = .race ∨ c.lapLimit = 0 ∧ c.timeLimit ≠ 0) ∧
    ((∃ l, (s.link l).role = .line) ∧
      ∀ p, p < s.lineCount → ∃ l, (s.link l).linePos = some p ∧ ∀ j, (s.link j).linePos = some p → j = l) ∧
    ((∃ l, (s.link l).role = .pitIn ∨ (s.link l).role = .pitOut) →
      ∃ c ∈ s.circuit.pit, c.inAfter < s.lineCount ∧ c.outBefore < s.lineCount) ∧
    ∀ n r, s.record? n = some r → r.session = s.session.number := by
  rw [State.canArm, Bool.and_eq_true, Bool.and_eq_true, Bool.and_eq_true, State.setupFits_iff, State.lineMapValid_iff h,
    State.pitValid_iff, State.numbersCurrent_iff hw, and_assoc, and_assoc]

theorem underWay_iff (p : Phase) : underWay p = true ↔
    p = .armed ∨ p = .green ∨ p = .caution ∨ p = .suspended ∨ p = .chequered := by
  cases p <;> simp [underWay]

/-! ## The requests (R130, R133) -/

theorem SessionSetup.length_bytes (a : SessionSetup) : a.bytes.length ≤ 32 := by simp [SessionSetup.bytes, putFields]

theorem exec_sessionSetup {a : SessionSetup} (h : a.inRange = true) (s : State) :
    exec (.sessionSetup a.bytes) s = .next (s.takeRequest .sessionSetup a.bytes fun s => serveSessionSetup s a) :=
  congrArg Host.Outcome.next (State.takeRequest_withArgs .sessionSetup (SessionSetup.parse_eq_some.2 ⟨h, rfl⟩))

/-- Settles O47, ARM by what `State.canArm` says of the map, the setup and the records. -/
theorem setupAndArm : Obligations.SetupAndArm := by
  intro s hr htable hlinks hroll
  refine ⟨fun a ha => ⟨_, exec_sessionSetup ha s, fun hlocked => ?_, fun hfree => ?_⟩, ⟨_, rfl, ?_⟩⟩
  · refine State.takeRequest_refused hr.1 hr.2 (SessionSetup.length_bytes a) ((unlessRolling_framed hroll _ _).trans ?_)
    exact if_pos ((underWay_iff s.session.phase).2 hlocked)
  · have hserve : serveSessionSetup (s.shiftZeros (a.bytes.length + 3)) a =
        accept ((s.shiftZeros (a.bytes.length + 3)).setSession { s.session with setup := some a }) [] :=
      (unlessRolling_framed hroll _ _).trans (if_neg fun h => hfree ((underWay_iff s.session.phase).1 h))
    rw [State.takeRequest_sessionWritten (serve := fun s => serveSessionSetup s a) (o := s.order)
      (c := { s.session with setup := some a }) hr (SessionSetup.length_bytes a) hserve]
    exact ⟨State.sessionWritten_takes hr htable.1 rfl, State.sessionWritten_session, State.sessionWritten_keepsIndex,
      closeEvent_keepsLead s _, closeEvent_agrees .., State.sessionWritten_everyOnlyPlaced⟩
  · have hcan := State.canArm_iff htable.1 hlinks
    refine ⟨fun hne => ?_, fun hidle => ⟨fun hnot => ?_, fun hfits => ?_⟩⟩
    · exact sessionRequest_refused (allowed := (decide <| · = .idle)) hr hroll (decide_eq_false hne)
    · refine State.takeRequest_refused hr.1 hr.2 (by simp) ((sessionRequest_eq hroll 3 _ _).trans ?_)
      refine (if_pos (decide_eq_true hidle)).trans (if_neg fun h => hnot ?_)
      exact hcan.1 h
    · have hserve : sessionRequest [] (s.shiftZeros 3) (decide (s.session.phase = .idle)) serveArm =
          accept ((s.shiftZeros 3).emptyLead.setSession s.session.armed) [] :=
        (sessionRequest_eq hroll 3 _ _).trans ((if_pos (decide_eq_true hidle)).trans (if_pos (hcan.2 hfits)))
      rw [State.takeRequest_sessionWritten (args := []) (o := { s.order with lead := [], highest := none })
        (c := s.session.armed) (serve := fun s => sessionRequest [] s (decide (s.session.phase = .idle)) serveArm)
        hr (by simp) hserve]
      obtain ⟨hrace, horder⟩ := State.sessionWritten_race (k := .arm) (args := []) (b := [])
        (o := { s.order with lead := [], highest := none }) (c := s.session.armed) hr rfl rfl
      exact ⟨State.sessionWritten_takes hr htable.1 rfl, hrace, horder, State.sessionWritten_session⟩

end Sys2Proof.Machine
end

section
/-! Requests refused before their own rules, frames and replies, and RESET TABLES (R59, R152, R156, R157, R166). -/

namespace Sys2Proof.Machine

/-! ## How every request is served -/

/-- The requests answered BUSY while ROLLING (R152). -/
def busyKinds : List RequestKind :=
  [.enrol, .amend, .retire, .reinstate, .exclude, .release, .adjust, .readRecord, .setCapacity, .readOrder,
   .sessionSetup, .arm, .green, .caution, .clearCaution, .suspend, .resume, .chequer, .close, .rollover, .readSession]

/-- The requests that name a record by its slot alone (R59). -/
def slotKinds : List RequestKind := [.retire, .reinstate, .exclude, .release]

/-- What a request answers before its own rules are reached: its arguments first, then ROLLING, then the record. -/
structure Asked (k : RequestKind) (a : List Byte) (serve : State → Served) : Prop where
  spells : ¬ Admits k a → ∀ s, serve s = refuse s .badArgument
  busy : Admits k a → k ∈ busyKinds → ∀ s : State, s.session.phase = .rolling → serve s = refuse s .busy
  free : k ∈ slotKinds → ∀ n, SpellsSlot a n → ∀ s : State, s.session.phase ≠ .rolling → s.record? n = none →
    serve s = refuse s .noSuchRecord

section
variable {k : RequestKind} {a : List Byte} {α : Type} {p : Option α}

theorem withArgs_of_not {P : Prop} (hp : P ↔ ∃ x, p = some x) (h : ¬ P) (s : State) (f : α → Served) :
    withArgs p s f = refuse s .badArgument := by
  rw [hp, not_exists] at h
  rw [Option.eq_none_iff_forall_not_mem.2 h]
  rfl

/-- A request served while ROLLING as at any time. -/
theorem Asked.always (hp : Admits k a ↔ ∃ x, p = some x) (hbusy : k ∉ busyKinds) (hslot : k ∉ slotKinds)
    (f : State → α → Served) : Asked k a fun s => withArgs p s (f s) where
  spells h s := withArgs_of_not hp h s _
  busy _ h := absurd h hbusy
  free h := absurd h hslot

/-- A request that meets BUSY while ROLLING. -/
theorem Asked.barred (hp : Admits k a ↔ ∃ x, p = some x) (hslot : k ∉ slotKinds) (f : State → α → Served) :
    Asked k a fun s => withArgs p s fun x => unlessRolling s (f s x) where
  spells h s := withArgs_of_not hp h s _
  busy h _ s hroll := by
    obtain ⟨x, hx⟩ := hp.1 h
    rw [hx]
    exact if_pos hroll
  free h := absurd h hslot

/-- A request on the record in a slot. -/
theorem Asked.slot (hp : Admits k a ↔ ∃ n, SpellsSlot a n) (f : State → Nat → Record → Served) :
    Asked k a fun s => withArgs (parseSlot a) s fun n => unlessRolling s (withRecord s n (f s n)) where
  spells h s := withArgs_of_not (hp.trans (exists_congr fun _ => parseSlot_iff.symm)) h s _
  busy h _ s hroll := by
    obtain ⟨n, hn⟩ := hp.1 h
    rw [parseSlot_iff.2 hn]
    exact if_pos hroll
  free _ n hn s hroll hfree := by
    rw [parseSlot_iff.2 hn]
    refine (if_neg hroll).trans ?_
    rw [withRecord, hfree]

theorem spelled {Spells : α → Prop} (h : ∀ x, p = some x ↔ Spells x) {P : Prop} (hP : P ↔ ∃ x, Spells x := by exact Iff.rfl) :
    P ↔ ∃ x, p = some x := hP.trans (exists_congr fun x => (h x).symm)

theorem admits_none {P : Prop} (h : P ↔ a = []) : P ↔ ∃ x, parseNone a = some x :=
  h.trans (parseNone_iff.symm.trans ⟨fun h => ⟨(), h⟩, fun ⟨(), h⟩ => h⟩)

end

/-- The end of the event of a request: RESET TABLES settles attention alone (R166). -/
def endingOf (k : RequestKind) : State → State → State :=
  match k with
  | .resetTables => fun _ t => t.settleAttention
  | _ => closeEvent

/-- Every request is a frame taken, with its arguments read first. -/
theorem exec_asked (k : RequestKind) (a : List Byte) :
    ∃ serve, Asked k a serve ∧ ∀ s, exec (k.command a) s = .next (s.takeRequestWith (endingOf k) k a serve) := by
  cases k with
  | selectSource =>
    exact ⟨_, .always (spelled fun _ => parseSource_iff) (by decide) (by decide) _, fun _ => rfl⟩
  | setLoop =>
    exact ⟨_, .always (spelled fun _ => SetLoopArgs.parse_iff) (by decide) (by decide) _, fun _ => rfl⟩
  | setSector =>
    exact ⟨_, .always (spelled fun _ => SetSectorArgs.parse_iff) (by decide) (by decide) _, fun _ => rfl⟩
  | setPit =>
    exact ⟨_, .always (spelled fun _ => PitSettings.parse_iff) (by decide) (by decide) _, fun _ => rfl⟩
  | readLoop =>
    exact ⟨_, .always (spelled fun _ => parseLink_iff) (by decide) (by decide) _, fun _ => rfl⟩
  | clearLoopFlags =>
    exact ⟨_, .always (spelled fun _ => ClearFlagsArgs.parse_iff) (by decide) (by decide) _, fun _ => rfl⟩
  | dismissUnknown =>
    exact ⟨_, .always (spelled fun _ => DismissArgs.parse_iff) (by decide) (by decide) _, fun _ => rfl⟩
  | setModeration =>
    exact ⟨_, .always (spelled fun _ => parseModeration_iff) (by decide) (by decide) _, fun _ => rfl⟩
  | enrol => exact ⟨_, .barred (spelled fun _ => EnrolArgs.parse_iff) (by decide) _, fun _ => rfl⟩
  | amend => exact ⟨_, .barred (spelled fun _ => AmendArgs.parse_iff) (by decide) _, fun _ => rfl⟩
  | adjust => exact ⟨_, .barred (spelled fun _ => AdjustArgs.parse_iff) (by decide) _, fun _ => rfl⟩
  | readRecord => exact ⟨_, .barred (spelled fun _ => ReadRecordArgs.parse_iff) (by decide) _, fun _ => rfl⟩
  | setCapacity => exact ⟨_, .barred (spelled fun _ => parseCapacity_iff) (by decide) _, fun _ => rfl⟩
  | readOrder => exact ⟨_, .barred (spelled fun _ => ReadOrderArgs.parse_iff) (by decide) _, fun _ => rfl⟩
  | sessionSetup => exact ⟨_, .barred (spelled fun _ => SessionSetup.parse_iff) (by decide) _, fun _ => rfl⟩
  | rollover => exact ⟨_, .barred (spelled fun _ => RolloverArgs.parse_iff) (by decide) _, fun _ => rfl⟩
  | retire | reinstate | exclude | release => exact ⟨_, .slot Iff.rfl _, fun _ => rfl⟩
  | arm | green | caution | clearCaution | suspend | resume | chequer | close | readSession =>
    exact ⟨_, .barred (admits_none Iff.rfl) (by decide) _, fun _ => rfl⟩
  | readTime | readUnknown | haltRollover | readSummary | readChanges | acknowledge | resetTables =>
    exact ⟨_, .always (admits_none Iff.rfl) (by decide) (by decide) _, fun _ => rfl⟩

/-! ## Requests refused before their own rules (R59, R152, R156) -/

theorem endingOf_eq (k : RequestKind) : endingOf k = closeEvent ∨ endingOf k = fun _ t => t.settleAttention := by
  cases k with
  | resetTables => exact .inr rfl
  | _ => exact .inl rfl

section
variable {s : State} {k : RequestKind} {args : List Byte} {serve : State → Served} {ending : State → State → State}

theorem State.takeRequestWith_taken (hb : s.report.buffer ≠ .pending) (ha : args.length ≤ 32) :
    s.takeRequestWith ending k args serve =
      ending (s.shiftZeros (args.length + 3))
        ((serve (s.shiftZeros (args.length + 3))).state.loadReply (some k)
          (serve (s.shiftZeros (args.length + 3))).result (serve (s.shiftZeros (args.length + 3))).body) :=
  (if_neg (Nat.not_lt.2 ha)).trans (if_neg hb)

theorem State.takeRequestWith_overrun (hb : s.report.buffer = .pending) (ha : args.length ≤ 32) :
    s.takeRequestWith ending k args serve = (s.shiftZeros (args.length + 3)).overrun :=
  (if_neg (Nat.not_lt.2 ha)).trans (if_pos hb)

/-- A refused request changes no block, so that either end of an event leaves the same (R158). -/
theorem State.takeRequestWith_refused {w : Result} (hr : s.ready) (ha : args.length ≤ 32)
    (h : serve (s.shiftZeros (args.length + 3)) = refuse (s.shiftZeros (args.length + 3)) w) :
    Refuses s (s.takeRequestWith (endingOf k) k args serve) k args w := by
  have hsame : s.takeRequestWith (endingOf k) k args serve = s.takeRequest k args serve := by
    rw [State.takeRequestWith_taken hr.2 ha, State.takeRequest_taken hr.2 ha, h]
    rcases endingOf_eq k with he | he
    · rw [he]
    · rw [he]
      exact (closeEvent_of_race (s := s.shiftZeros (args.length + 3))
        (u := (s.shiftZeros (args.length + 3)).loadReply (some k) w []) hr.1.1 rfl rfl rfl).symm
  rw [hsame]
  exact State.takeRequest_refused hr.1 hr.2 ha h

end

/-- Settles O58: every request reads its arguments first, then the phase, then the record it names. -/
theorem refused : Obligations.Refused := by
  intro s k a hr ha
  obtain ⟨serve, hasked, hexec⟩ := exec_asked k a
  refine ⟨_, hexec s, fun hnot => ?_, fun hadmits hroll hk => ?_, fun n hn hroll hfree hk => ?_⟩
  · exact State.takeRequestWith_refused hr ha (hasked.spells hnot _)
  · exact State.takeRequestWith_refused hr ha (hasked.busy hadmits hk _ hroll)
  · exact State.takeRequestWith_refused hr ha (hasked.free hk n hn _ hroll hfree)

/-! ## Frames and replies (R156, R157, R168) -/

theorem Reply.frame_eq (r : Reply) : r.frame =
    withCheck ([BitVec.ofNat 8 ((r.kind.map (·.code)).getD 0), BitVec.ofNat 8 (codeIn Result.all r.result),
      BitVec.ofNat 8 ((if r.replaced then 1 else 0) + if r.overrun then 2 else 0)] ++
      beBytes 2 r.body.length ++ r.body) := by
  unfold Reply.frame replyFrame Reply.marks
  cases r.kind <;> rfl

theorem notReadyFrame_eq (kind : Option RequestKind) (marks : BitVec 2) : notReadyFrame kind marks =
    withCheck [BitVec.ofNat 8 ((kind.map (·.code)).getD 0), 0x01#8, BitVec.ofNat 8 marks.toNat, 0x00#8, 0x00#8] := by
  unfold notReadyFrame replyFrame
  cases kind <;> rfl

theorem State.replyBytes_ready {s : State} {r : Reply} (hb : s.report.buffer = .ready) (hr : s.report.reply = some r) :
    s.replyBytes = r.frame := by
  unfold State.replyBytes
  rw [hb, hr]

theorem State.replyBytes_notReady {s : State} (hb : s.report.buffer ≠ .ready) :
    s.replyBytes = notReadyFrame s.report.pendingKind (Config.notReadyMarks s.freeDraws) := by
  unfold State.replyBytes
  split
  · exact absurd ‹_› hb
  · rfl

theorem State.replySelection_ready {s : State} {n : Nat} (hb : s.report.buffer = .ready) : s.replySelection n =
    { s.shiftOut (shifted s.replyBytes n) with report :=
      { (s.shiftOut (shifted s.replyBytes n)).report with
        readFlag := s.report.readFlag || decide (s.replyBytes.length ≤ n) } } := if_pos hb

theorem State.replySelection_notReady {s : State} {n : Nat} (hb : s.report.buffer ≠ .ready) : s.replySelection n =
    { s.shiftOut (shifted s.replyBytes n) with freeDraws := s.freeDraws + 1 } := if_neg hb

theorem State.overrun_only {s : State} (n : Nat) (hb : s.report.buffer = .pending) :
    OnlyReply s (s.shiftZeros n).overrun ∧ (s.shiftZeros n).overrun.report.buffer = .pending ∧
    (s.shiftZeros n).overrun.report.portPhase = .idle ∧ (s.shiftZeros n).overrun.report.sdo = List.replicate n 0#8 ∧
    (s.shiftZeros n).overrun.report.readFlag = s.report.readFlag ∧
    (s.shiftZeros n).overrun.report.reply = s.report.reply.map fun r => { r with overrun := true } :=
  ⟨⟨⟨rfl, rfl, rfl⟩, ⟨rfl, rfl, rfl⟩, ⟨rfl, rfl⟩, ⟨rfl, rfl⟩, rfl, rfl, rfl⟩, hb, rfl, rfl, rfl, rfl⟩

theorem State.badFrame_pending {s : State} (w : Result) (n : Nat) (hb : s.report.buffer = .pending) :
    s.badFrame w n = (s.shiftZeros n).overrun := if_pos hb

theorem State.badFrame_answered {s : State} (w : Result) (n : Nat) (hb : s.report.buffer ≠ .pending) :
    s.badFrame w n = ((s.shiftZeros n).loadReply none w []).completeReply := if_neg hb

/-- Settles O57, each selection by what it leaves of the port. -/
theorem replies : Obligations.Replies := by
  intro s hlegal replaced overrun refused
  have hrefused : ∀ n w, s.report.buffer ≠ .pending → refused (s.badFrame w n) n w := fun n w hb => by
    rw [State.badFrame_answered w n hb]
    exact ⟨⟨⟨rfl, rfl, rfl⟩, ⟨rfl, rfl, rfl⟩, ⟨rfl, rfl⟩, ⟨rfl, rfl⟩, rfl, rfl, rfl⟩, rfl, rfl, rfl, rfl, rfl⟩
  have hoverrun : ∀ n w, s.report.buffer = .pending → overrun (s.badFrame w n) n := fun n w hb => by
    rw [State.badFrame_pending w n hb]
    exact State.overrun_only n hb
  refine ⟨fun n => ⟨_, rfl, hoverrun n _, hrefused n _⟩, fun k a => ⟨_, rfl, hoverrun _ _, hrefused _ _⟩,
    fun k a ha hb => ?_, fun n => ?_, _, rfl, ?_⟩
  · obtain ⟨serve, -, hexec⟩ := exec_asked k a
    refine ⟨_, hexec s, ?_⟩
    rw [State.takeRequestWith_overrun hb ha]
    exact State.overrun_only _ hb
  · refine ⟨s.replySelection n, s.replyBytes, rfl, ?_⟩
    by_cases hb : s.report.buffer = .ready
    · rw [State.replySelection_ready hb]
      refine ⟨⟨rfl, rfl, rfl⟩, ⟨rfl, rfl, rfl⟩, ⟨rfl, rfl⟩, ⟨rfl, rfl, rfl⟩, rfl, rfl, rfl, rfl, rfl, fun r _ hr => ?_,
        fun h => absurd hb h⟩
      exact ⟨rfl, rfl, (State.replyBytes_ready hb hr).trans r.frame_eq⟩
    · rw [State.replySelection_notReady hb]
      refine ⟨⟨rfl, rfl, rfl⟩, ⟨rfl, rfl, rfl⟩, ⟨rfl, rfl⟩, ⟨rfl, rfl, rfl⟩, rfl, rfl, rfl, rfl, rfl,
        fun r h => absurd h hb, fun _ => ⟨rfl, BitVec.ofNat 8 (Config.notReadyMarks s.freeDraws).toNat, ?_, ?_⟩⟩
      · rw [BitVec.toNat_ofNat]
        omega
      · rw [State.replyBytes_notReady hb, notReadyFrame_eq]
        have hkind : BitVec.ofNat 8 ((s.report.pendingKind.map (·.code)).getD 0) =
            BitVec.ofNat 8 (match s.report.buffer, s.report.reply with
              | .pending, some r => (r.kind.map (·.code)).getD 0
              | _, _ => 0) := by
          unfold Reporting.pendingKind
          cases s.report.buffer with
          | empty => rfl
          | ready => rfl
          | pending => cases s.report.reply <;> rfl
        exact congrArg (fun b => withCheck [b, 0x01#8, BitVec.ofNat 8 (Config.notReadyMarks s.freeDraws).toNat, 0x00#8,
          0x00#8]) hkind
  · exact ⟨⟨⟨rfl, rfl, rfl⟩, ⟨rfl, rfl, rfl⟩, ⟨rfl, rfl⟩, ⟨rfl, rfl⟩, rfl, rfl, rfl⟩, rfl, rfl, rfl, rfl, rfl⟩

/-! ## RESET TABLES (R166) -/

theorem Link.softReset_eq (k : Link) : k.softReset = { k with
    flags := 0, outage := none, latestHit := none, silenceExpiry := none, passings := [],
    state := if k.role = .off then .off else if k.framing = none then .down else .silent } := by
  unfold Link.softReset derivedState Link.framed
  cases k.framing <;> rfl

/-- With no slot changed and no cause pending nothing is left to tell (R161, R163). -/
theorem Reporting.settle_of_empty {r : Reporting} (hchanged : r.changed = []) (hcauses : r.causes = 0#6) :
    r.syncRecords.settleLatch = { r with latch := false } := by
  obtain ⟨causes, latch, he, hc, hl⟩ := r.settle_eq
  have hnone : causes = r.causes := hasCause_of_ext fun c => by
    rw [hc, hchanged, hcauses]
    cases c <;> rfl
  rw [if_pos (hnone.trans hcauses)] at hl
  rw [he, hl, hnone]

/-- Settles O59: the soft reset of every block, with nothing left to report. -/
theorem resetTables : Obligations.ResetTables := by
  intro s hb
  have hexec : exec (.resetTables []) s =
      .next (((s.shiftZeros 3).softReset.loadReply (some .resetTables) .ok []).settleAttention) :=
    congrArg Host.Outcome.next (State.takeRequestWith_taken (args := []) hb (by simp))
  have hsettled : ((s.shiftZeros 3).softReset.loadReply (some .resetTables) .ok []).settleAttention =
      { (s.shiftZeros 3).softReset.loadReply (some .resetTables) .ok [] with
        report := { ((s.shiftZeros 3).softReset.loadReply (some .resetTables) .ok []).report with latch := false } } :=
    congrArg (fun r => { (s.shiftZeros 3).softReset.loadReply (some .resetTables) .ok [] with report := r })
      (Reporting.settle_of_empty rfl rfl)
  refine ⟨_, hexec, ?_⟩
  rw [hsettled]
  refine ⟨⟨rfl, rfl, rfl, rfl, rfl⟩, rfl, rfl, ⟨rfl, rfl⟩, fun l => ?_, rfl, rfl, rfl, rfl, rfl, rfl, rfl, rfl, rfl⟩
  exact (getElem_mapLinks Link.softReset s.links l).trans (Link.softReset_eq _)

end Sys2Proof.Machine
end

section
/-! What an event has told of records written and moved before it ends (R74, R121, R161), and the record step of a
rollover (R149 to R151). -/

namespace Sys2Proof.Machine

/-! ## Records written and moved (R74, R116, R121) -/

/-- What the reporting unit holds in the middle of an event: each record that differs by now is in the changed-slot set,
and ORDER is raised where the list differs by now. -/
structure Told (s u : State) (raised : List Cause) : Prop where
  changed : ∀ n, n ∈ u.report.changed ↔ n ∈ s.report.changed ∨ u.record? n ≠ s.record? n
  causes : ∀ c, hasCause u.report.causes c = (hasCause s.report.causes c || decide (c ∈ raised) ||
    (decide (c = .order) && decide (u.order.list ≠ s.order.list)))
  latch : u.report.latch = s.report.latch
  timer : KeepsTimer s u
  wf : u.table.records.wf

section
variable {s u v : State} {raised : List Cause}

theorem Told.refl (hw : s.table.records.wf) : Told s s [] where
  changed n := by simp
  causes c := by simp
  latch := rfl
  timer := ⟨rfl, rfl⟩
  wf := hw

/-- What an event writes beside the records, the list and the reporting unit tells nothing. -/
theorem Told.of_same (h : Told s u raised) (hrecords : v.table.records = u.table.records)
    (hlist : v.order.list = u.order.list) (hreport : v.report = u.report) : Told s v raised where
  changed n := by rw [hreport, State.record?, hrecords]; exact h.changed n
  causes c := by rw [hreport, hlist]; exact h.causes c
  latch := by rw [hreport]; exact h.latch
  timer := by unfold KeepsTimer; rw [hreport]; exact h.timer
  wf := hrecords ▸ h.wf

/-- A write of a record is told of truly unless it brings a changed record back to what it was. -/
theorem Told.putRecord (h : Told s u raised) {slot : Nat} {r r' : Record} (hr : u.record? slot = some r)
    (hback : s.record? slot = some r' → r' = r) : Told s (u.putRecord slot r') raised := by
  by_cases hsame : r' = r
  · rw [hsame, State.putRecord, if_pos hr]
    exact h
  · have hne : ¬ u.record? slot = some r' := fun he => hsame (Option.some.inj (he.symm.trans hr))
    have hput : u.putRecord slot r' = (u.setRecords (u.table.records.put slot r')).markChanged slot := if_neg hne
    constructor
    case changed =>
      intro n
      have hmem : n ∈ (u.putRecord slot r').report.changed ↔ n = slot ∨ n ∈ u.report.changed := by
        rw [hput]
        exact mem_joinSlot slot n _
      rw [hmem, h.changed]
      by_cases hn : n = slot
      · rw [hn, State.putRecord_record_self]
        exact iff_of_true (.inl rfl) (.inr fun he => hsame (hback he.symm))
      · rw [State.putRecord_record_ne _ _ hn]
        exact or_iff_right hn
    case causes => rw [hput]; exact h.causes
    case latch => rw [hput]; exact h.latch
    case timer => rw [hput]; exact h.timer
    case wf => rw [hput]; exact KeyMap.wf_put h.wf _ _

/-- The list brought to the keys, where positions told the places of the list it had. -/
theorem Told.reorder (h : Told s u raised) (hlist : u.order.list = s.order.list)
    (hplaces : orderOf u.keyType u.table.records = u.order.list →
      ∀ p ∈ u.table.records, p.2.position = placeOf u.order.list p.1)
    (hback : ∀ n, u.reorder.record? n = s.record? n → u.record? n = s.record? n) : Told s u.reorder raised := by
  have hstep := RaceStep.reorder u
  constructor
  case changed =>
    intro n
    rw [State.mem_reorder_changed h.wf, h.changed]
    constructor
    · rintro ((hn | hn) | hn)
      · exact .inl hn
      · exact .inr fun he => hn (hback n he)
      · exact .inr fun he => hn (he.trans (hback n he).symm)
    · rintro (hn | hn)
      · exact .inl (.inl hn)
      · by_cases hu : u.record? n = s.record? n
        · exact .inr (by rwa [hu])
        · exact .inl (.inr hu)
  case causes =>
    intro c
    have hbefore : hasCause u.report.causes c = (hasCause s.report.causes c || decide (c ∈ raised)) := by
      rw [h.causes, hlist]
      simp
    by_cases hsame : orderOf u.keyType u.table.records = u.order.list
    · rw [State.hasCause_reorder (hplaces hsame), hbefore, hlist]
    · have hcauses : u.reorder.report.causes = addCause u.report.causes .order := by
        simp [State.reorder, State.updAll_eq, hsame]
      rw [hcauses, hasCause_addCause, hbefore, State.reorder_list]
      rw [hlist] at hsame
      simp [hsame, eq_comm]
  case latch => exact hstep.latch.trans h.latch
  case timer => exact ⟨hstep.moderation.trans h.timer.1, hstep.moderationExpiry.trans h.timer.2⟩
  case wf => rw [KeyMap.wf, hstep.keys h.wf]; exact h.wf

theorem State.reorder_reorder (u : State) : u.reorder.reorder = u.reorder := State.reorder_of_agrees u.reorder_agrees

theorem closeEvent_reorder (s u : State) : closeEvent s u.reorder = closeEvent s u := by
  rw [closeEvent, State.reorder_reorder, closeEvent]

/-- At the end of an event whose list agrees with the keys the reporting unit is told of all it changed. -/
theorem Told.follows (hs : s.settled) (h : Told s u raised) (hagrees : u.orderAgrees) (hraised : .records ∉ raised) :
    Follows s (closeEvent s u) raised := by
  obtain ⟨causes, latch, he, hafter, hfollows⟩ := closeEvent_eq s u
  rw [State.reorder_of_agrees hagrees] at he hafter hfollows
  rw [he]
  refine ⟨h.changed, fun c => (hafter c).trans ?_, ?_, h.timer⟩
  · cases c with
    | records =>
      rw [if_pos rfl]
      cases hbefore : hasCause s.report.causes .records with
      | true =>
        obtain ⟨n, hn⟩ := List.exists_mem_of_ne_nil _ (hs.2.1.1 hbefore)
        simpa using List.ne_nil_of_mem ((h.changed n).2 (.inl hn))
      | false =>
        rw [Bool.eq_iff_iff]
        simp [hraised]
    | session => simp [h.causes, State.sessionItems, State.countIn]
    | order => simp [h.causes]
    | loops | time | unknown => simp [h.causes]
  · rw [LatchFollows, ← h.latch]
    exact hfollows

/-- What closes an event whose last write leaves the list to be brought to the keys. -/
theorem Told.follows_reorder (hs : s.settled) (h : Told s u raised) (hlist : u.order.list = s.order.list)
    (hplaces : orderOf u.keyType u.table.records = u.order.list →
      ∀ p ∈ u.table.records, p.2.position = placeOf u.order.list p.1)
    (hback : ∀ n, u.reorder.record? n = s.record? n → u.record? n = s.record? n) (hraised : .records ∉ raised) :
    Follows s (closeEvent s u) raised := by
  rw [← closeEvent_reorder]
  exact (h.reorder hlist hplaces hback).follows hs u.reorder_agrees hraised

end

end Sys2Proof.Machine
end

section
/-! The record step of a rollover (R149 to R151). -/

namespace Sys2Proof.Machine

/-! ## Which record is due (R149) -/

theorem State.dueSlot_eq_none_iff {s : State} (hw : s.table.records.wf) :
    s.dueSlot = none ↔ ∀ n r, s.record? n = some r → r.session = s.session.number := by
  rw [← not_iff_not, ← ne_eq, State.dueSlot_ne_none_iff hw]
  simp

/-- The lowest slot of another session is due (R149). -/
theorem State.dueSlot_eq_some {s : State} (hw : s.table.records.wf) {slot : Nat} {r : Record}
    (hr : s.record? slot = some r) (hother : r.session ≠ s.session.number)
    (hlow : ∀ n x, n < slot → s.record? n = some x → x.session = s.session.number) : s.dueSlot = some slot := by
  unfold State.dueSlot
  cases hfind : s.table.records.find? fun p => decide (p.2.session ≠ s.session.number) with
  | none => exact absurd hother (by simpa using List.find?_eq_none.1 hfind _ (KeyMap.find_mem hr))
  | some p =>
    obtain ⟨hp, xs, ys, hsplit, hbefore⟩ := List.find?_eq_some_iff_append.1 hfind
    have hmem : (slot, r) ∈ xs ++ p :: ys := hsplit ▸ KeyMap.find_mem hr
    rw [List.mem_append, List.mem_cons] at hmem
    rcases hmem with hin | hin | hin
    · exact absurd (hbefore _ hin) (by simpa using hother)
    · rw [← hin]
      rfl
    · have hlt : p.1 < slot := by
        unfold KeyMap.wf at hw
        rw [hsplit, List.map_append, List.map_cons, List.pairwise_append] at hw
        exact List.rel_of_pairwise_cons hw.2.1 (List.mem_map.2 ⟨(slot, r), hin, rfl⟩)
      have hrec : s.record? p.1 = some p.2 := KeyMap.find_of_mem hw (hsplit ▸ by simp)
      exact absurd (hlow _ _ hlt hrec) (by simpa using hp)

/-! ## The record through its step (R150, R151) -/

theorem rolledState_excluded {st : RecState} {carry : CarrySet} (h : st = .excluded ∧ carry.keepExcluded = true) :
    rolledState st carry = .excluded := if_pos h

theorem rolledState_enrolled {st : RecState} {carry : CarrySet} (h : ¬(st = .excluded ∧ carry.keepExcluded = true)) :
    rolledState st carry = .enrolled := if_neg h

theorem rolledState_ne_excluded_iff (st : RecState) (carry : CarrySet) :
    rolledState st carry ≠ .excluded ↔ ¬(st = .excluded ∧ carry.keepExcluded = true) := by
  unfold rolledState
  split <;> simp_all

section
variable {r : Record} {c : Cursor}

theorem rolledGrid_kept (h : c.carry.gridFromOrder = false) : rolledGrid r c = r.grid :=
  if_neg (Bool.eq_false_iff.1 h)

theorem rolledGrid_out (h : c.carry.gridFromOrder = true) (ho : r.state = .excluded ∧ c.carry.keepExcluded = true) :
    rolledGrid r c = none := (if_pos h).trans (if_pos (rolledState_excluded ho))

theorem rolledGrid_counted (h : c.carry.gridFromOrder = true)
    (ho : ¬(r.state = .excluded ∧ c.carry.keepExcluded = true)) : rolledGrid r c = some c.nextGrid :=
  (if_pos h).trans (if_neg ((rolledState_ne_excluded_iff _ _).2 ho))

end

theorem stateInOrder_rolledState (st : RecState) (carry : CarrySet) : stateInOrder (rolledState st carry) = false := by
  unfold rolledState
  split <;> rfl

theorem Record.rolled_eq (r : Record) (c : Cursor) (number lines : Nat) : r.rolled c number lines =
    { code := r.code, car := r.car, cls := r.cls, grid := rolledGrid r c, session := number,
      state := rolledState r.state c.carry, retiredFrom := none, laps := 0, started := false, lapStart := none,
      lastPos := none, lastTime := none, latest := none, lapFlags := 0,
      sectors := List.replicate lines .pending, lastLap := none, delta := none, gap := none,
      position := none, elapsed := none, finish := none, penalty := 0, netAdjust := 0, pitStops := 0,
      pit := none, sighting := none, rejection := none, notices := 0,
      bestLap := if c.carry.bests then r.bestLap else none,
      bestSectors := if c.carry.bests then r.bestSectors else List.replicate lines none } := by
  unfold Record.rolled
  dsimp only
  cases c.carry.bests <;> rfl

/-! ## The step in the part (R149) -/

section
variable {s : State} {c : Cursor} {slot : Nat} {r : Record}

/-- The record written, before the cursor moves on. -/
def State.rolledAt (s : State) (c : Cursor) (slot : Nat) (r : Record) : State :=
  s.putRecord slot (r.rolled c s.session.number s.lineCount)

theorem State.rolledAt_session (s : State) (c : Cursor) (slot : Nat) (r : Record) :
    (s.rolledAt c slot r).session = s.session := State.putRecord_session ..

theorem State.rolledAt_record (s : State) (c : Cursor) (slot : Nat) (r : Record) (n : Nat) :
    (s.rolledAt c slot r).record? n =
      if n = slot then some (r.rolled c s.session.number s.lineCount) else s.record? n := by
  by_cases hn : n = slot
  · rw [if_pos hn, hn]
    exact State.putRecord_record_self ..
  · rw [if_neg hn]
    exact State.putRecord_record_ne _ _ hn

/-- A record outside the list, without position or gap, stays as it is while the list is brought to the keys. -/
theorem State.reorder_record_out {u : State} (hw : u.table.records.wf) {n : Nat} {x : Record} (hx : u.record? n = some x)
    (hstate : stateInOrder x.state = false) (hposition : x.position = none) (hgap : x.gap = none) :
    u.reorder.record? n = some x := by
  have hplace : placeOf (orderOf u.keyType u.table.records) n = none := by
    refine Option.not_isSome_iff_eq_none.1 fun hsome => ?_
    rw [placeOf_isSome_iff, mem_orderOf hw] at hsome
    obtain ⟨y, hy, hin⟩ := hsome
    rw [Option.some.inj (hy.symm.trans hx), hstate] at hin
    exact nomatch hin
  rw [State.reorder_record, hx, Option.map_some, State.placed, hplace]
  obtain ⟨⟩ := x
  simp_all [Record.takePlace]

theorem Record.rolled_out (r : Record) (c : Cursor) (number lines : Nat) :
    stateInOrder (r.rolled c number lines).state = false ∧ (r.rolled c number lines).position = none ∧
    (r.rolled c number lines).gap = none := by
  rw [Record.rolled_eq]
  exact ⟨stateInOrder_rolledState _ _, rfl, rfl⟩

/-- A record that leaves the list changes it; one outside it keeps its place, which is none (R57, R116). -/
theorem State.rolledAt_told (hs : s.settled) (hw : s.table.records.wf) (hr : s.record? slot = some r) :
    Told s (s.rolledAt c slot r) [] ∧
    (orderOf (s.rolledAt c slot r).keyType (s.rolledAt c slot r).table.records = s.order.list →
      ∀ p ∈ (s.rolledAt c slot r).table.records, p.2.position = placeOf s.order.list p.1) ∧
    ∀ n, (s.rolledAt c slot r).reorder.record? n = s.record? n → (s.rolledAt c slot r).record? n = s.record? n := by
  have htold : Told s (s.rolledAt c slot r) [] := (Told.refl hw).putRecord hr fun h => Option.some.inj (h.symm.trans hr)
  obtain ⟨hout, hposition, hgap⟩ := r.rolled_out c s.session.number s.lineCount
  refine ⟨htold, fun hsame p hp => ?_, fun n hn => ?_⟩
  · have hrec := KeyMap.find_of_mem htold.wf hp
    rw [show KeyMap.find _ p.1 = _ from s.rolledAt_record c slot r p.1] at hrec
    by_cases hn : p.1 = slot
    · rw [if_pos hn] at hrec
      have hplace : placeOf s.order.list p.1 = none := by
        refine Option.not_isSome_iff_eq_none.1 fun hsome => ?_
        rw [placeOf_isSome_iff, ← hsame, mem_orderOf htold.wf] at hsome
        obtain ⟨x, hx, hstate⟩ := hsome
        rw [show KeyMap.find _ p.1 = _ from s.rolledAt_record c slot r p.1, if_pos hn] at hx
        rw [← Option.some.inj hx, hout] at hstate
        exact nomatch hstate
      rw [hplace, ← Option.some.inj hrec, hposition]
    · rw [if_neg hn] at hrec
      exact (hs.1.2 p (KeyMap.find_mem hrec)).1
  · by_cases hn' : n = slot
    · rw [← hn, hn']
      have hself : (s.rolledAt c slot r).record? slot = some (r.rolled c s.session.number s.lineCount) :=
        State.putRecord_record_self ..
      rw [hself, State.reorder_record_out htold.wf hself hout hposition hgap]
    · rw [State.rolledAt_record, if_neg hn']

theorem State.rollEnd_eq (u : State) : u.rollEnd = u.setSession u.rollEnd.session ∧
    u.rollEnd.session.setup = u.session.setup := by
  unfold State.rollEnd
  split <;> exact ⟨rfl, rfl⟩

theorem State.rollEnd_some {u : State} (h : u.dueSlot ≠ none) : u.rollEnd = u :=
  if_neg fun hnone => h (Option.isNone_iff_eq_none.1 hnone)

theorem State.rollEnd_none {u : State} (h : u.dueSlot = none) :
    u.rollEnd = u.setSession { u.session with phase := .idle, incomplete := false, cursor := none } :=
  if_pos (Option.isNone_iff_eq_none.2 h)

/-- The part with the record written and the cursor moved on, before the run may end. -/
def State.cursorMoved (s : State) (c : Cursor) (slot : Nat) (r : Record) : State :=
  (s.rolledAt c slot r).setSession
    { (s.rolledAt c slot r).session with cursor := some (c.after (s.stepPhase c) slot r) }

theorem State.rollRecord_eq (s : State) (c : Cursor) (slot : Nat) (r : Record) :
    s.rollRecord c slot r = (s.rolledAt c slot r).setSession (s.cursorMoved c slot r).rollEnd.session ∧
    (s.cursorMoved c slot r).rollEnd.session.setup = s.session.setup := by
  obtain ⟨heq, hsetup⟩ := (s.cursorMoved c slot r).rollEnd_eq
  exact ⟨heq, hsetup.trans (congrArg Session.setup (s.rolledAt_session c slot r) :)⟩

theorem State.cursorMoved_dueSlot (hw : s.table.records.wf) : (s.cursorMoved c slot r).dueSlot = none ↔
    ∀ n x, n ≠ slot → s.record? n = some x → x.session = s.session.number := by
  have hwf : (s.cursorMoved c slot r).table.records.wf := by
    change (s.putRecord slot _).table.records.wf
    rcases s.putRecord_eq slot (r.rolled c s.session.number s.lineCount) with ⟨he, -⟩ | he <;> rw [he]
    · exact hw
    · exact KeyMap.wf_put hw _ _
  have hnumber : (s.cursorMoved c slot r).session.number = s.session.number :=
    (congrArg Session.number (s.rolledAt_session c slot r) :)
  have hrec : ∀ n, (s.cursorMoved c slot r).record? n = _ := s.rolledAt_record c slot r
  rw [State.dueSlot_eq_none_iff hwf, hnumber]
  constructor
  · intro h n x hn hx
    exact h n x ((hrec n).trans ((if_neg hn).trans hx))
  · intro h n x hx
    rw [hrec] at hx
    by_cases hn : n = slot
    · rw [if_pos hn] at hx
      rw [← Option.some.inj hx, Record.rolled_eq]
    · rw [if_neg hn] at hx
      exact h n x hn hx

theorem State.setSession_reorder_record {u : State} {k : Session} (h : k.setup = u.session.setup) (n : Nat) :
    (u.setSession k).reorder.record? n = u.reorder.record? n := by
  rw [State.reorder_record, State.reorder_record]
  unfold State.placed
  rw [State.keyType_of_setup h]
  rfl

theorem KeepsBeside.rolledAt (s : State) (c : Cursor) (slot : Nat) (r : Record) (k : Session) :
    KeepsBeside s ((s.rolledAt c slot r).setSession k) :=
  (KeepsBeside.putRecord s slot _).trans (.setSession _ k)

theorem State.rolledAt_follows (hs : s.settled) (hw : s.table.records.wf) (hr : s.record? slot = some r) {k : Session}
    (hk : k.setup = s.session.setup) : Follows s (closeEvent s ((s.rolledAt c slot r).setSession k)) [] := by
  obtain ⟨htold, hplaces, hback⟩ := State.rolledAt_told (c := c) hs hw hr
  have hsetup : k.setup = (s.rolledAt c slot r).session.setup :=
    hk.trans (congrArg Session.setup (s.rolledAt_session c slot r)).symm
  have hlist : (s.rolledAt c slot r).order.list = s.order.list := congrArg OrderBlock.list (State.putRecord_order ..)
  refine (htold.of_same (v := (s.rolledAt c slot r).setSession k) rfl rfl rfl).follows_reorder hs hlist (fun hsame => ?_)
    (fun n hn => hback n ((State.setSession_reorder_record hsetup n).symm.trans hn)) (by simp)
  rw [State.keyType_of_setup hsetup] at hsame
  exact fun p hp => (hplaces (hsame.trans hlist) p hp).trans (by rw [← hlist]; rfl)

/-- The record after its step, and the others at their places (R150). -/
theorem State.rolledAt_closed (hs : s.settled) (hw : s.table.records.wf) (hr : s.record? slot = some r) {k : Session}
    (hk : k.setup = s.session.setup) :
    OthersOnlyPlaced s (closeEvent s ((s.rolledAt c slot r).setSession k)) slot ∧
    (closeEvent s ((s.rolledAt c slot r).setSession k)).record? slot =
      some (r.rolled c s.session.number s.lineCount) := by
  have hcloses := closeEvent_closes s ((s.rolledAt c slot r).setSession k)
  obtain ⟨hout, hposition, hgap⟩ := r.rolled_out c s.session.number s.lineCount
  have hsetup : k.setup = (s.rolledAt c slot r).session.setup :=
    hk.trans (congrArg Session.setup (s.rolledAt_session c slot r)).symm
  refine ⟨hcloses.others fun n hn => (s.rolledAt_record c slot r n).trans (if_neg hn), ?_⟩
  rw [closeEvent_record?, State.setSession_reorder_record hsetup]
  refine State.reorder_record_out (State.rolledAt_told hs hw hr).1.wf ?_ hout hposition hgap
  exact State.putRecord_record_self ..

/-- The step of a record, as the part serves it (R149). -/
theorem State.rolloverStep_record (hroll : s.session.phase = .rolling) (hcursor : s.session.cursor = some c)
    (hdue : s.nextDue c = some slot) (hr : s.record? slot = some r) :
    s.rolloverStep =
      closeEvent s ((s.rolledAt c slot r).setSession (s.cursorMoved c slot r).rollEnd.session) := by
  rw [← (s.rollRecord_eq c slot r).1, State.rolloverStep, if_pos hroll, hcursor]
  dsimp only
  rw [State.rollStep, hdue]
  dsimp only
  rw [hr]

theorem State.rolloverStep_done (hroll : s.session.phase = .rolling) (hcursor : s.session.cursor = some c)
    (hdue : s.nextDue c = none) : s.rolloverStep = closeEvent s s.completeRollover := by
  rw [State.rolloverStep, if_pos hroll, hcursor]
  dsimp only
  rw [State.rollStep, hdue]

theorem State.rolloverStep_gone (hroll : s.session.phase = .rolling) (hcursor : s.session.cursor = some c)
    (hdue : s.nextDue c = some slot) (hr : s.record? slot = none) : s.rolloverStep = closeEvent s s := by
  rw [State.rolloverStep, if_pos hroll, hcursor]
  dsimp only
  rw [State.rollStep, hdue]
  dsimp only
  rw [hr]

/-- What every record step keeps, whichever record it takes. -/
theorem State.rolloverStep_keeps (hs : s.settled) (hw : s.table.records.wf) (hroll : s.session.phase = .rolling)
    (hcursor : s.session.cursor = some c) :
    KeepsTrackside s s.rolloverStep ∧ KeepsQueue s s.rolloverStep ∧ KeepsPort s s.rolloverStep ∧
    KeepsLead s s.rolloverStep ∧ KeepsIndex s s.rolloverStep ∧ s.rolloverStep.orderAgrees ∧
    Follows s s.rolloverStep [] := by
  have hkept : ∀ u, s.rolloverStep = closeEvent s u → KeepsBeside s u → Follows s (closeEvent s u) [] →
      KeepsTrackside s s.rolloverStep ∧ KeepsQueue s s.rolloverStep ∧ KeepsPort s s.rolloverStep ∧
      KeepsLead s s.rolloverStep ∧ KeepsIndex s s.rolloverStep ∧ s.rolloverStep.orderAgrees ∧
      Follows s s.rolloverStep [] := fun u hu hbeside hfollows => by
    have hcloses := closeEvent_closes s u
    obtain ⟨htime, hlinks, hcircuit, -, hdraws, hpending, -⟩ := closeEvent_blocks s u
    rw [hu]
    exact ⟨hbeside.trackside.trans ⟨htime, hlinks, hcircuit⟩, hbeside.queue.trans ⟨hpending, hdraws⟩,
      hbeside.port.trans (closeEvent_keepsPort s u), hbeside.lead.trans hcloses.lead,
      hbeside.index.trans hcloses.index, hcloses.agrees, hfollows⟩
  cases hdue : s.nextDue c with
  | none =>
    exact hkept _ (State.rolloverStep_done hroll hcursor hdue) (.setSession s _)
      ((SessionEvent.of_setSession s (c := s.completeRollover.session) rfl).follows hs)
  | some slot =>
    cases hr : s.record? slot with
    | none =>
      exact hkept _ (State.rolloverStep_gone hroll hcursor hdue hr) (.refl s)
        ((SessionEvent.of_setSession s (c := s.session) rfl).follows hs)
    | some r =>
      exact hkept _ (State.rolloverStep_record hroll hcursor hdue hr) (.rolledAt ..)
        (State.rolledAt_follows hs hw hr (s.rollRecord_eq c slot r).2)

end

/-- Settles O53: the record due is `State.nextDue`, and its step is `Record.rolled` with the cursor of `Cursor.after`. -/
theorem rolloverStep : Obligations.RolloverStep := by
  intro s c hs htable hroll hcursor phase
  obtain ⟨htrackside, hqueue, hport, hlead, hindex, hagrees, hfollows⟩ :=
    State.rolloverStep_keeps hs htable.1 hroll hcursor
  refine ⟨s.rolloverStep, rfl, htrackside, hqueue, hport, hlead, hindex, hagrees, hfollows, fun hslots hall => ?_,
    fun slot r hr hdue => ?_⟩
  · have hnone : s.nextDue c = none := by
      rw [State.nextDue, show s.stepPhase c = .slots from hslots]
      exact (State.dueSlot_eq_none_iff htable.1).2 hall
    have hevent := SessionEvent.of_setSession s (c := s.completeRollover.session) rfl
    obtain ⟨hrace, horder, -⟩ := hevent.closed hs
    rw [State.rolloverStep_done hroll hcursor hnone]
    exact ⟨hrace, horder, closeEvent_session s _⟩
  · intro out counts
    have hnext : s.nextDue c = some slot := by
      unfold State.nextDue
      rcases hdue with ⟨hphase, hhead⟩ | ⟨hphase, hother, hlow⟩
      · rw [show s.stepPhase c = .order from hphase]
        exact hhead
      · rw [show s.stepPhase c = .slots from hphase]
        exact State.dueSlot_eq_some htable.1 hr hother hlow
    obtain ⟨-, hsetup⟩ := s.rollRecord_eq c slot r
    obtain ⟨hothers, hrec⟩ := State.rolledAt_closed (c := c) hs htable.1 hr hsetup
    have hsession := closeEvent_session s ((s.rolledAt c slot r).setSession (s.cursorMoved c slot r).rollEnd.session)
    rw [State.rolloverStep_record hroll hcursor hnext hr]
    have hgrid : (r.rolled c s.session.number s.lineCount).grid = rolledGrid r c := by rw [Record.rolled_eq]
    have hstate : (r.rolled c s.session.number s.lineCount).state = rolledState r.state c.carry := by
      rw [Record.rolled_eq]
    refine ⟨hothers, ⟨_, hrec, ?_, fun h => hstate.trans (rolledState_excluded h),
      fun h => hstate.trans (rolledState_enrolled h), fun h => hgrid.trans (rolledGrid_kept h),
      fun h => ⟨fun ho => hgrid.trans (rolledGrid_out h ho), fun ho => hgrid.trans (rolledGrid_counted h ho)⟩⟩,
      c.after (s.stepPhase c) slot r, fun h => ?_, fun h => ?_, rfl, fun ⟨n, x, hn, hx, hne⟩ => ?_, fun hlast => ?_⟩
    · rw [hgrid, hstate]
      exact r.rolled_eq c _ _
    · exact if_pos ⟨h.1, (rolledState_ne_excluded_iff _ _).2 h.2⟩
    · exact if_neg fun hc => h ⟨hc.1, (rolledState_ne_excluded_iff _ _).1 hc.2⟩
    · rw [hsession, State.rollEnd_some fun hnone => hne ((State.cursorMoved_dueSlot htable.1).1 hnone n x hn hx)]
      exact congrArg (fun k : Session => { k with cursor := some (c.after (s.stepPhase c) slot r) })
        (s.rolledAt_session c slot r)
    · rw [hsession, State.rollEnd_none ((State.cursorMoved_dueSlot htable.1).2 hlast)]
      exact congrArg (fun k : Session => { k with phase := .idle, incomplete := false, cursor := none })
        (s.rolledAt_session c slot r)

end Sys2Proof.Machine
end

section
/-! Passings that close and are handed on: to the unknown list, or to no one (R68, R69, R75). -/

namespace Sys2Proof.Machine

/-! ## A passing taken out of its link's table -/

/-- The part with the entry of a code out of its link's table: what a passing that closes finds as it is handed on. -/
def State.gone (s : State) (l : LinkNo) (code : Nat) : State :=
  s.withLink l { s.link l with passings := (s.link l).passings.remove code } []

section
variable {s : State} {l : LinkNo} {code : Nat}

theorem State.gone_link_self : (s.gone l code).link l = { s.link l with passings := (s.link l).passings.remove code } := by
  simp [State.gone, State.withLink, State.link, addFlags]

theorem State.gone_link_ne {j : LinkNo} (h : j ≠ l) : (s.gone l code).link j = s.link j := by
  simp only [State.gone, State.withLink, State.link]
  exact Vector.getElem_set_ne _ _ (by simpa [Fin.ext_iff, eq_comm] using h)

theorem exec_closeExpiry_gone {p : OpenPassing} (h : PassingDue s l code p) :
    exec (.closeExpiry l code) s = .next (closeEvent s ((s.gone l code).handOn l code p.time p.quality)) :=
  exec_closeExpiry_handsOn h

/-- What the event that closes a passing leaves outside the race, where the hand-on writes the race alone. -/
theorem passingGone_of_beside {u : State} (hbeside : KeepsTrackside (s.gone l code) u) (hqueue : KeepsQueue s u)
    (hport : KeepsPort s u) (hindex : u.table.index = s.table.index) (hlimit : u.table.slotLimit = s.table.slotLimit) :
    PassingGone s (closeEvent s u) l code := by
  obtain ⟨htime, hlinks, hcircuit⟩ := hbeside
  obtain ⟨htime', hlinks', hcircuit', -, hdraws', hpending', -⟩ := closeEvent_blocks s u
  obtain ⟨hindex', -, -, hlimit'⟩ := (closeEvent_closes s u).index
  have hlink : ∀ j, (closeEvent s u).link j = (s.gone l code).link j := fun j => by
    rw [State.link, hlinks', hlinks, State.link]
  exact ⟨htime'.trans htime, fun j hj => (hlink j).trans (State.gone_link_ne hj), (hlink l).trans State.gone_link_self,
    hcircuit'.trans hcircuit, hqueue.trans ⟨hpending', hdraws'⟩, hport.trans (closeEvent_keepsPort s u),
    hindex'.trans hindex, hlimit'.trans hlimit⟩

theorem RaceStep.passingGone {u : State} (h : RaceStep (s.gone l code) u) : PassingGone s (closeEvent s u) l code :=
  passingGone_of_beside ⟨h.time, h.links, h.circuit⟩ ⟨h.pending, h.freeDraws⟩
    ⟨h.portPhase, h.buffer, h.reply, h.readFlag, h.sdo⟩ h.index h.slotLimit

theorem RaceStep.keepsIndex {u : State} (h : RaceStep (s.gone l code) u) : KeepsIndex s (closeEvent s u) :=
  KeepsIndex.trans (s := s) ⟨h.index, h.unknown, h.unknownFull, h.slotLimit⟩ (closeEvent_closes s u).index

end

/-! ## The unknown list (R75) -/

section
variable {s u : State} {raised : List Cause}

/-- An event that wrote neither a record, nor the order, nor the session controller: it raises what it raised. -/
theorem closeEvent_reports (hs : s.settled) (hrecords : u.table.records = s.table.records) (horder : u.order = s.order)
    (hsession : u.session = s.session) (hchanged : u.report.changed = s.report.changed) (hcauses : RaisesOnly s u raised)
    (hlatch : u.report.latch = s.report.latch) (htimer : KeepsTimer s u) (hraised : .records ∉ raised) :
    (closeEvent s u).table = u.table ∧ (closeEvent s u).order = s.order ∧ (closeEvent s u).session = s.session ∧
    Reports s (closeEvent s u) raised := by
  have hagrees : u.orderAgrees := by
    unfold State.orderAgrees
    rw [hrecords, horder, State.keyType_of_setup (congrArg Session.setup hsession)]
    exact hs.1
  have hitems : u.sessionItems = s.sessionItems := by
    simp only [State.sessionItems, State.countIn, hrecords, hsession]
  obtain ⟨hrace, horder'⟩ := closeEvent_race_of_agrees (s := s) hagrees
  refine ⟨hrace, horder'.trans horder, (closeEvent_session s u).trans hsession, ?_⟩
  obtain ⟨causes, latch, he, hafter, hfollows⟩ := closeEvent_eq s u
  rw [State.reorder_of_agrees hagrees] at he hafter hfollows
  rw [he]
  refine ⟨hchanged, fun c => (hafter c).trans ?_, ?_, htimer⟩
  · rw [hchanged, hcauses, hitems]
    cases c with
    | records => rw [if_pos rfl, ← hs.2.hasCause_records, decide_eq_false hraised, Bool.or_false]
    | loops | time | unknown | order | session => simp
  · rw [LatchFollows, ← hlatch]
    exact hfollows

theorem mem_seen_iff {xs : List UnknownEntry} {e x : UnknownEntry} (hx : x.code ≠ e.code) :
    x ∈ insertUnknown e (dropUnknown e.code xs) ↔ x ∈ xs := by
  rw [(insertUnknown_perm e _).mem_iff, List.mem_cons, or_iff_right (fun h => hx (congrArg UnknownEntry.code h)),
    dropUnknown, List.mem_filter]
  exact and_iff_left (decide_eq_true hx)

theorem mem_inserted_iff {xs : List UnknownEntry} {e x : UnknownEntry} (hx : x.code ≠ e.code) :
    x ∈ insertUnknown e xs ↔ x ∈ xs := by
  rw [(insertUnknown_perm e _).mem_iff, List.mem_cons, or_iff_right fun h => hx (congrArg UnknownEntry.code h)]

/-- The entry of a code is the only one dropped with it. -/
theorem length_dropUnknown {xs : List UnknownEntry} (hn : (xs.map (·.code)).Nodup) {e : UnknownEntry} (he : e ∈ xs) :
    (dropUnknown e.code xs).length + 1 = xs.length := by
  have hperm : (e :: dropUnknown e.code xs).Perm xs := by
    refine (List.perm_ext_iff_of_nodup ?_ (hn.of_map _)).2 fun x => ?_
    · exact List.nodup_cons.2 ⟨fun h => code_notMem_dropUnknown e.code xs (List.mem_map_of_mem h),
        ((hn.of_map _).sublist (dropUnknown_sublist _ _))⟩
    · rw [List.mem_cons, dropUnknown, List.mem_filter, decide_eq_true_eq]
      refine ⟨fun h => h.elim (fun h => h ▸ he) And.left, fun hx => ?_⟩
      by_cases hcode : x.code = e.code
      · exact .inl (List.inj_on_of_nodup_map hn hx he hcode)
      · exact .inr ⟨hx, hcode⟩
  simpa using hperm.length_eq

theorem UnknownEntry.seen_eq (e : UnknownEntry) (l : LinkNo) (t : Nat) : e.seen l t =
    { code := e.code, first := min e.first t, last := max e.last t, link := if e.last ≤ t then l else e.link,
      sightings := min (e.sightings + 1) 255 } := by
  unfold UnknownEntry.seen
  congr 1
  split <;> omega

theorem State.seeUnknown_present {e : UnknownEntry} (hn : (s.table.unknown.map (·.code)).Nodup)
    (he : e ∈ s.table.unknown) (l : LinkNo) (t : Nat) :
    s.seeUnknown l e.code t = s.setUnknown (insertUnknown (e.seen l t) (dropUnknown e.code s.table.unknown)) := by
  have hfind : s.table.unknown.find? (fun x => decide (x.code = e.code)) = some e := by
    cases hfind : s.table.unknown.find? fun x => decide (x.code = e.code) with
    | none => simpa using List.find?_eq_none.1 hfind e he
    | some x =>
      exact congrArg some (List.inj_on_of_nodup_map hn (List.mem_of_find?_eq_some hfind) he
        (by simpa using List.find?_some hfind))
  unfold State.seeUnknown
  rw [hfind]

theorem State.seeUnknown_new {code : Nat} (hnew : ∀ e ∈ s.table.unknown, e.code ≠ code)
    (hroom : s.table.unknown.length < 16) (l : LinkNo) (t : Nat) : s.seeUnknown l code t =
    (s.setUnknown (insertUnknown { code := code, first := t, last := t, link := l, sightings := 1 }
      s.table.unknown)).raise .unknown := by
  have hfind : s.table.unknown.find? (fun x => decide (x.code = code)) = none :=
    List.find?_eq_none.2 fun e he => by simpa using hnew e he
  unfold State.seeUnknown
  rw [hfind]
  exact if_pos hroom

theorem State.seeUnknown_full {code : Nat} (hnew : ∀ e ∈ s.table.unknown, e.code ≠ code)
    (hfull : s.table.unknown.length = 16) (l : LinkNo) (t : Nat) : s.seeUnknown l code t =
    if s.table.unknownFull then s
    else ({ s with table := { s.table with unknownFull := true } }).raise .unknown := by
  have hfind : s.table.unknown.find? (fun x => decide (x.code = code)) = none :=
    List.find?_eq_none.2 fun e he => by simpa using hnew e he
  unfold State.seeUnknown
  rw [hfind]
  exact if_neg (by simp [hfull])

end

theorem State.handOn_unknown {s : State} {l : LinkNo} {code t : Nat} {q : Quality} (hroll : s.session.phase ≠ .rolling)
    (hnone : s.table.index.find code = none) : s.handOn l code t q = s.seeUnknown l code t := by
  unfold State.handOn
  rw [if_neg hroll, hnone]

/-- A passing seen under no record writes the unknown list and its full flag, and raises what it raises. -/
theorem closeEvent_unknown {s : State} (hs : s.settled) (l : LinkNo) (code : Nat) {xs : List UnknownEntry} {full : Bool}
    {causes : Mask 6} {raised : List Cause}
    (hcauses : ∀ c, hasCause causes c = (hasCause s.report.causes c || decide (c ∈ raised)))
    (hraised : .records ∉ raised) {u : State}
    (hu : u = { s.gone l code with
      table := { s.table with unknown := xs, unknownFull := full }, report := { s.report with causes := causes } }) :
    PassingGone s (closeEvent s u) l code ∧ (closeEvent s u).table.records = s.table.records ∧
    (closeEvent s u).order = s.order ∧ (closeEvent s u).session = s.session ∧ (closeEvent s u).table.unknown = xs ∧
    (closeEvent s u).table.unknownFull = full ∧ Reports s (closeEvent s u) raised := by
  subst hu
  obtain ⟨htable, horder, hsession, hreports⟩ := closeEvent_reports (s := s)
    (u := { s.gone l code with
      table := { s.table with unknown := xs, unknownFull := full }, report := { s.report with causes := causes } })
    hs rfl rfl rfl rfl hcauses rfl ⟨rfl, rfl⟩ hraised
  exact ⟨passingGone_of_beside ⟨rfl, rfl, rfl⟩ ⟨rfl, rfl⟩ ⟨rfl, rfl, rfl, rfl, rfl⟩ rfl rfl,
    (congrArg CompetitorTable.records htable :), horder, hsession, (congrArg CompetitorTable.unknown htable :),
    (congrArg CompetitorTable.unknownFull htable :), hreports⟩

theorem hasCause_raise (m : Mask 6) (c d : Cause) : hasCause (addCause m d) c = (hasCause m c || decide (c ∈ [d])) := by
  rw [hasCause_addCause]
  simp [eq_comm]

/-- Settles O27, by the three ways a code meets the unknown list. -/
theorem unknownSeen : Obligations.UnknownSeen := by
  intro s l code p hs hunknown hdue hroll hnone
  obtain ⟨hlen, hnodup, hsorted, -⟩ := hunknown
  have hhand : (s.gone l code).handOn l code p.time p.quality = (s.gone l code).seeUnknown l code p.time :=
    State.handOn_unknown hroll hnone
  refine ⟨_, exec_closeExpiry_gone hdue, ?_⟩
  rw [hhand]
  by_cases hin : ∃ e ∈ s.table.unknown, e.code = code
  · obtain ⟨e, he, rfl⟩ := hin
    obtain ⟨hgone, hrecords, horder, hsession, hlist, hfull, hreports⟩ := closeEvent_unknown hs l e.code
      (causes := s.report.causes) (raised := []) (fun c => by simp) (by simp)
      (State.seeUnknown_present (s := s.gone l e.code) hnodup he l p.time)
    have hsame : ∀ x ∈ s.table.unknown, x.code = e.code → x = e := fun x hx h =>
      List.inj_on_of_nodup_map hnodup hx he h
    refine ⟨hgone, hrecords, horder, hsession, fun x hx => by rw [hlist]; exact mem_seen_iff (e := e.seen l p.time) hx,
      ?_, fun x hx hcode => ?_, fun hnew => absurd rfl (hnew e he), fun hnew => absurd rfl (hnew e he)⟩
    · rw [hlist]
      exact insertUnknown_sorted (code_notMem_dropUnknown e.code _) (hsorted.sublist (dropUnknown_sublist _ _))
    · rw [hsame x hx hcode, hlist, ← UnknownEntry.seen_eq, (insertUnknown_perm _ _).length_eq, List.length_cons]
      exact ⟨(insertUnknown_perm _ _).mem_iff.2 List.mem_cons_self, length_dropUnknown hnodup he, hfull, hreports⟩
  · have hnew : ∀ e ∈ s.table.unknown, e.code ≠ code := fun e he hcode => hin ⟨e, he, hcode⟩
    by_cases hroom : s.table.unknown.length < 16
    · obtain ⟨hgone, hrecords, horder, hsession, hlist, hfull, hreports⟩ := closeEvent_unknown hs l code
        (causes := addCause s.report.causes .unknown) (raised := [.unknown]) (hasCause_raise _ · _) (by simp)
        (State.seeUnknown_new (s := s.gone l code) hnew hroom l p.time)
      refine ⟨hgone, hrecords, horder, hsession, fun x hx => ?_, ?_, fun e he hcode => absurd hcode (hnew e he),
        fun _ _ => ?_, fun _ h => absurd hroom (by omega)⟩
      · rw [hlist]
        exact mem_inserted_iff hx
      · rw [hlist]
        refine insertUnknown_sorted (fun h => ?_) hsorted
        obtain ⟨e, he, hcode⟩ := List.mem_map.1 h
        exact hnew e he hcode
      · rw [hlist, (insertUnknown_perm _ _).length_eq]
        exact ⟨(insertUnknown_perm _ _).mem_iff.2 List.mem_cons_self, rfl, hfull, hreports⟩
    · have hfull : s.table.unknown.length = 16 := Nat.le_antisymm hlen (Nat.le_of_not_lt hroom)
      have hsee := State.seeUnknown_full (s := s.gone l code) hnew hfull l p.time
      have hend : PassingGone s (closeEvent s ((s.gone l code).seeUnknown l code p.time)) l code ∧
          (closeEvent s ((s.gone l code).seeUnknown l code p.time)).table.records = s.table.records ∧
          (closeEvent s ((s.gone l code).seeUnknown l code p.time)).order = s.order ∧
          (closeEvent s ((s.gone l code).seeUnknown l code p.time)).session = s.session ∧
          (closeEvent s ((s.gone l code).seeUnknown l code p.time)).table.unknown = s.table.unknown ∧
          (closeEvent s ((s.gone l code).seeUnknown l code p.time)).table.unknownFull = true ∧
          Reports s (closeEvent s ((s.gone l code).seeUnknown l code p.time))
            (if s.table.unknownFull then [] else [.unknown]) := by
        cases hheld : s.table.unknownFull with
        | true =>
          exact closeEvent_unknown hs l code (causes := s.report.causes) (fun c => by simp) (by simp)
            ((hsee.trans (if_pos hheld)).trans (by rw [← hheld]; rfl))
        | false =>
          exact closeEvent_unknown hs l code (causes := addCause s.report.causes .unknown) (raised := [.unknown])
            (hasCause_raise _ · _) (by simp) (hsee.trans (if_neg (Bool.eq_false_iff.1 hheld)))
      obtain ⟨hgone, hrecords, horder, hsession, hlist, hflag, hreports⟩ := hend
      exact ⟨hgone, hrecords, horder, hsession, fun x hx => by rw [hlist], hlist ▸ hsorted,
        fun e he hcode => absurd hcode (hnew e he), fun _ h => absurd h hroom, fun _ _ => ⟨hlist, hflag, hreports⟩⟩

/-! ## A passing that goes to no one (R69, R70) -/

end Sys2Proof.Machine
end

section
/-! Resolved passings: the sighting, the record written for them, and where they go (R69, R70). -/

namespace Sys2Proof.Machine

/-! ## A record written twice -/

theorem joinSlot_joinSlot (n : Nat) (xs : List Nat) : joinSlot n (joinSlot n xs) = joinSlot n xs := by
  induction xs with
  | nil => simp [joinSlot]
  | cons x xs ih =>
    simp only [joinSlot]
    split
    · simp [joinSlot]
    · split
      · simp [joinSlot, *]
      · simp [joinSlot, *]

/-- Of two writes of one record in an event the second counts, unless it undoes the first (R74). -/
theorem State.putRecord_putRecord {s : State} {n : Nat} {a b : Record}
    (hback : s.record? n = some b → s.record? n = some a) : (s.putRecord n a).putRecord n b = s.putRecord n b := by
  by_cases ha : s.record? n = some a
  · have hself : s.putRecord n a = s := if_pos ha
    rw [hself]
  · have hb : s.record? n ≠ some b := fun h => ha (hback h)
    have hput : ∀ x, s.record? n ≠ some x → s.putRecord n x = (s.setRecords (s.table.records.put n x)).markChanged n :=
      fun x hx => if_neg hx
    by_cases hab : a = b
    · rw [hab, State.putRecord, if_pos (State.putRecord_record_self ..)]
    · have hself : (s.putRecord n a).record? n ≠ some b := fun h =>
        hab (Option.some.inj ((State.putRecord_record_self s n a).symm.trans h))
      rw [State.putRecord, if_neg hself, hput a ha, hput b hb]
      simp only [State.setRecords, State.markChanged, KeyMap.put_put, joinSlot_joinSlot]

theorem State.updRecord_putRecord {s : State} {n : Nat} {a : Record} {f : Record → Record}
    (hback : s.record? n = some (f a) → s.record? n = some a) : (s.putRecord n a).updRecord n f = s.putRecord n (f a) := by
  rw [State.updRecord_some (State.putRecord_record_self ..), State.putRecord_putRecord hback]

/-! ## The sighting (R69) -/

theorem Record.sight_eq (r : Record) (l : LinkNo) (p : OpenPassing) : r.sight l p.time p.quality = r.seen l p := by
  have hany : r.sighting.any (fun x => decide (p.time < x.time)) = true ↔ ∃ x ∈ r.sighting, p.time < x.time := by
    cases r.sighting <;> simp
  unfold Record.sight Record.seen
  simp only [hany]
  split <;> rfl

/-- A record that keeps the sighting of a passing is the one it was before only where the sighting was. -/
theorem Record.seen_of_sighting {r x : Record} {l : LinkNo} {p : OpenPassing}
    (hx : x.sighting = (r.seen l p).sighting) (h : x = r) : r.seen l p = r := by
  have hsame : (r.seen l p).sighting = r.sighting := by rw [← hx, h]
  exact congrArg (fun o => { r with sighting := o }) hsame

/-! ## One record written under the key it had -/

section
variable {s : State} {l : LinkNo} {code slot : Nat} {r r' : Record}

/-- What a passing leaves that writes its record and changes neither its place nor its gap. -/
theorem closeEvent_rewritten (hs : s.settled) (hw : s.table.records.wf) (hr : s.record? slot = some r)
    (hentry : ∀ ty, orderEntry ty (slot, r') = orderEntry ty (slot, r))
    (hposition : r'.position = r.position) (hgap : r'.gap = r.gap) :
    let t := closeEvent s ((s.gone l code).putRecord slot r')
    PassingGone s t l code ∧ KeepsIndex s t ∧ t.order = s.order ∧ t.session = s.session ∧ Follows s t [] ∧
    (∀ n, n ≠ slot → t.record? n = s.record? n) ∧ t.record? slot = some r' := by
  intro t
  have hput : KeepsBeside (s.gone l code) ((s.gone l code).putRecord slot r') := .putRecord ..
  have hrecorded : Recorded (s.gone l code) ((s.gone l code).putRecord slot r') [] :=
    .putRecord (s := s.gone l code) hs hw hr hposition (.inl hgap)
  obtain ⟨hrace, horder⟩ := closeEvent_race_of_agrees (s := s)
    (State.orderAgrees.putRecord (s := s.gone l code) hs.1 hw hr hentry hposition (.inl hgap))
  have hrec : ∀ n, t.record? n = ((s.gone l code).putRecord slot r').record? n := fun n => by
    rw [State.record?, hrace, State.record?]
  refine ⟨passingGone_of_beside hput.trackside hput.queue hput.port hput.index.1 hput.index.2.2.2,
    KeepsIndex.trans (s := s) hput.index (closeEvent_closes s _).index, horder.trans (State.putRecord_order ..),
    (closeEvent_session s _).trans (State.putRecord_session ..), hrecorded.follows (s := s.gone l code) hs (by simp),
    fun n hn => (hrec n).trans (State.putRecord_record_ne _ _ hn), (hrec slot).trans (State.putRecord_record_self ..)⟩

end

/-! ## Where a resolved passing goes (R68, R70) -/

section
variable {s : State} {l : LinkNo} {code slot : Nat} {p : OpenPassing} {r : Record}

/-- The part as a resolved passing finds it: its entry gone, the sighting on its record. -/
def State.seeing (s : State) (l : LinkNo) (code slot : Nat) (p : OpenPassing) (r : Record) : State :=
  (s.gone l code).putRecord slot (r.seen l p)

theorem State.seeing_record : (s.seeing l code slot p r).record? slot = some (r.seen l p) :=
  State.putRecord_record_self ..

theorem State.seeing_session : (s.seeing l code slot p r).session = s.session := State.putRecord_session ..

theorem State.seeing_links : (s.seeing l code slot p r).links = (s.gone l code).links := by
  unfold State.seeing
  rcases (s.gone l code).putRecord_eq slot (r.seen l p) with ⟨h, -⟩ | h <;> rw [h]
  rfl

theorem State.seeing_circuit : (s.seeing l code slot p r).circuit = s.circuit := by
  unfold State.seeing
  rcases (s.gone l code).putRecord_eq slot (r.seen l p) with ⟨h, -⟩ | h <;> rw [h]
  · rfl
  · rfl

theorem State.handOn_known {t : Nat} {q : Quality} (hroll : s.session.phase ≠ .rolling)
    (hcode : s.table.index.find code = some slot) (hr : s.record? slot = some r) :
    s.handOn l code t q = (s.putRecord slot (r.sight l t q)).dispatch slot l t := by
  unfold State.handOn
  rw [if_neg hroll, hcode]
  dsimp only
  rw [State.updRecord_some hr]

theorem exec_closeExpiry_seeing (hdue : PassingDue s l code p) (hroll : s.session.phase ≠ .rolling)
    (hcode : s.table.index.find code = some slot) (hr : s.record? slot = some r) :
    exec (.closeExpiry l code) s = .next (closeEvent s ((s.seeing l code slot p r).dispatch slot l p.time)) := by
  rw [exec_closeExpiry_gone hdue, State.handOn_known (s := s.gone l code) hroll hcode hr, Record.sight_eq]
  rfl

theorem State.dispatch_idle {v : State} (h : scoringPhase v.session.phase = false) (t : Nat) : v.dispatch slot l t = v :=
  if_neg (Bool.eq_false_iff.1 h)

theorem scoringPhase_iff (q : Phase) : scoringPhase q = true ↔ q = .green ∨ q = .caution ∨ q = .chequered := by
  simp [scoringPhase, or_assoc]

/-- A record that is out of the running takes no passing, whatever the link's role (R70). -/
theorem State.dispatch_out {v : State} {x : Record} (hx : v.record? slot = some x)
    (hout : x.state = .finished ∨ x.state = .retired ∨ x.state = .excluded) (t : Nat) : v.dispatch slot l t = v := by
  unfold State.dispatch
  split
  · rw [hx]
    dsimp only
    split
    · unfold State.dispatchLine
      rcases hout with h | h | h <;> rw [h]
    · unfold State.withPit State.takePitIn
      split
      · rcases hout with h | h | h <;> rw [h]
      · rfl
    · unfold State.withPit State.takePitOut
      split
      · rcases hout with h | h | h <;> rw [h]
      · rfl
    · rfl
  · rfl

end

/-- Settles O28. -/
theorem sightingOnly : Obligations.SightingOnly := by
  intro s l code slot p r hs htable hdue hroll hcode hr hno
  have hstays : (s.seeing l code slot p r).dispatch slot l p.time = s.seeing l code slot p r := by
    rcases hno with hphase | hout
    · refine State.dispatch_idle (Bool.eq_false_iff.2 fun h => ?_) _
      rw [scoringPhase_iff, State.seeing_session] at h
      obtain ⟨h1, h2, h3⟩ := hphase
      rcases h with h | h | h <;> contradiction
    · exact State.dispatch_out State.seeing_record hout _
  have hentry : ∀ ty, orderEntry ty (slot, r.seen l p) = orderEntry ty (slot, r) := fun _ => rfl
  rw [exec_closeExpiry_seeing hdue hroll hcode hr, hstays]
  exact ⟨_, rfl, closeEvent_rewritten hs htable.1 hr hentry rfl rfl⟩

end Sys2Proof.Machine
end

section
/-! The course as a passing finds it, and the tests of a line passing (R15, R81 to R83, R85). -/

namespace Sys2Proof.Machine

/-! ## The course (R15, R85) -/

/-- Two states that a passing is scored alike in: the clock, the session, the circuit, and of the links the line map and
the outages. -/
structure SameCourse (s v : State) : Prop where
  time : v.time = s.time
  session : v.session = s.session
  circuit : v.circuit = s.circuit
  held : ∀ l, (v.link l).held = (s.link l).held
  outage : ∀ l, (v.link l).outage = (s.link l).outage

theorem State.linkAt_eq (s : State) (j : Nat) :
    s.linkAt j = ((List.finRange 8).find? fun l => decide ((s.link l).held = some j)).map s.link := by
  rw [State.linkAt, State.linkList_eq, List.find?_map, Option.map_map]
  rfl

section
variable {s v : State} (h : SameCourse s v)
include h

theorem SameCourse.lineCount : v.lineCount = s.lineCount := by
  have hheld : v.heldPositions = s.heldPositions := by
    rw [State.heldPositions, State.heldPositions, State.linkList_eq, State.linkList_eq, List.filterMap_map,
      List.filterMap_map]
    exact List.filterMap_congr fun l _ => h.held l
  rw [State.lineCount, hheld, State.lineCount]

theorem SameCourse.outageAt (j : Nat) : (v.linkAt j).bind (·.outage) = (s.linkAt j).bind (·.outage) := by
  have hfind : (fun l => decide ((v.link l).held = some j)) = fun l => decide ((s.link l).held = some j) :=
    funext fun l => by rw [h.held]
  rw [State.linkAt_eq, State.linkAt_eq, hfind]
  cases (List.finRange 8).find? fun l => decide ((s.link l).held = some j) with
  | none => rfl
  | some l => exact h.outage l

theorem SameCourse.now : v.now = s.now := congrArg TimeBase.now h.time

theorem SameCourse.echoGuard : v.echoGuard = s.echoGuard := by
  unfold State.echoGuard
  rw [h.session]

theorem SameCourse.sectorMinimum : v.sectorMinimum = s.sectorMinimum := by
  unfold State.sectorMinimum
  rw [h.circuit]

theorem SameCourse.deltaDirection : v.deltaDirection = s.deltaDirection := by
  unfold State.deltaDirection
  rw [h.session]

theorem SameCourse.elapsedAt : v.elapsedAt = s.elapsedAt := by
  unfold State.elapsedAt
  rw [h.session]

theorem SameCourse.excused : v.excused = s.excused := by
  funext a b j
  rw [State.excused, State.excused, h.outageAt, h.session]
  unfold State.outageSeen
  rw [h.now]

theorem SameCourse.unseenStatus : v.unseenStatus = s.unseenStatus := by
  funext q n a b
  rw [State.unseenStatus, State.unseenStatus, h.excused, h.lineCount]

theorem SameCourse.spannedEntry : v.spannedEntry = s.spannedEntry := by
  funext r q k t
  rw [State.spannedEntry, State.spannedEntry, h.unseenStatus]

theorem SameCourse.lineTest : v.lineTest = s.lineTest := by
  funext q u r p t
  rw [State.lineTest, State.lineTest, h.lineCount, h.echoGuard, h.sectorMinimum]

theorem SameCourse.steppedRecord : v.steppedRecord = s.steppedRecord := by
  funext r q k p t
  unfold State.steppedRecord
  rw [h.lineCount, h.spannedEntry, h.deltaDirection, h.session, h.elapsedAt]

end

theorem State.gone_course (s : State) (l : LinkNo) (code : Nat) : SameCourse s (s.gone l code) where
  time := rfl
  session := rfl
  circuit := rfl
  held j := by
    by_cases hj : j = l
    · rw [hj, State.gone_link_self]
      rfl
    · rw [State.gone_link_ne hj]
  outage j := by
    by_cases hj : j = l
    · rw [hj, State.gone_link_self]
    · rw [State.gone_link_ne hj]

theorem RaceStep.course {s u v : State} (h : SameCourse s u) (k : RaceStep u v) (hsession : v.session = u.session) :
    SameCourse s v where
  time := k.time.trans h.time
  session := hsession.trans h.session
  circuit := k.circuit.trans h.circuit
  held l := by rw [State.link, k.links]; exact h.held l
  outage l := by rw [State.link, k.links]; exact h.outage l

/-! ## The tests of a line passing (R81, R82) -/

theorem stepsFrom_eq {lines q p : Nat} (hq : q < lines) :
    stepsFrom lines q p = (p + lines - q) % lines := by
  have hint : ((p : Int) - (q : Int)) % (lines : Int) = (((p + lines - q) % lines : Nat) : Int) := by
    rw [Int.natCast_mod, Nat.cast_sub (by omega), Nat.cast_add, show (p : Int) + lines - q = p - q + lines by ring,
      Int.add_emod_right]
  rw [stepsFrom, hint]
  exact Int.toNat_natCast _

theorem stepsFrom_eq_zero_iff {lines q p : Nat} (hq : q < lines) (hp : p < lines) :
    stepsFrom lines q p = 0 ↔ p = q := by
  rw [stepsFrom_eq hq]
  constructor
  · intro h
    by_cases hle : q ≤ p
    · rw [show p + lines - q = (p - q) + lines by omega, Nat.add_mod_right, Nat.mod_eq_of_lt (by omega)] at h
      omega
    · rw [Nat.mod_eq_of_lt (by omega)] at h
      omega
  · rintro rfl
    rw [Nat.add_sub_cancel_left, Nat.mod_self]

theorem stepCount_of_ne {lines q p : Nat} (hq : q < lines) (h : p ≠ q) :
    stepCount lines q p = stepsFrom lines q p := by
  rw [stepCount, if_neg h, stepsFrom_eq hq]

theorem minimumSum_eq (minimum : Nat → Nat) (lines q k : Nat) :
    minimumSum minimum lines q k = ((List.range k).map fun i => minimum ((q + i) % lines)).sum := by
  induction k with
  | zero => rfl
  | succ k ih => simp [minimumSum, ih, List.range_succ]

theorem State.echoGuard_eq (s : State) : s.echoGuard = (s.session.setup.map (·.echoGuard)).getD 0 * 1000000 := by
  unfold State.echoGuard
  cases s.session.setup with
  | none => simp
  | some c => simp [Config.perSecond]

section
variable {s : State} {r : Record} {q pos t : Nat}

theorem State.lineTest_echo (hq : q < s.lineCount) (hpos : pos < s.lineCount) (h : isEcho s r q pos t) :
    s.lineTest q r.lastTime r.reference pos t = .rejected .echo := by
  obtain ⟨hsame, hsoon⟩ := h
  have htest : echoTest s.lineCount s.echoGuard q pos ((t : Int) - (r.reference : Int)) = .rejected .echo := by
    rw [echoTest, if_pos ((stepsFrom_eq_zero_iff hq hpos).2 hsame), State.echoGuard_eq]
    exact if_pos hsoon
  rw [State.lineTest, htest]

theorem State.lineTest_steps (hq : q < s.lineCount) (hpos : pos < s.lineCount) (h : ¬ isEcho s r q pos t) :
    s.lineTest q r.lastTime r.reference pos t =
      if tooSoon s.sectorMinimum s.lineCount q (stepCount s.lineCount q pos) r.lastTime.isSome
        ((t : Int) - (r.reference : Int)) then .rejected .tooSoon
      else .steps (stepCount s.lineCount q pos) := by
  have htest : echoTest s.lineCount s.echoGuard q pos ((t : Int) - (r.reference : Int)) =
      .steps (stepCount s.lineCount q pos) := by
    by_cases hsame : pos = q
    · rw [echoTest, if_pos ((stepsFrom_eq_zero_iff hq hpos).2 hsame), State.echoGuard_eq, stepCount, if_pos hsame]
      exact if_neg fun hsoon => h ⟨hsame, hsoon⟩
    · rw [echoTest, if_neg fun hz => hsame ((stepsFrom_eq_zero_iff hq hpos).1 hz), stepCount_of_ne hq hsame]
  rw [State.lineTest, htest]

theorem tooSoon_iff : tooSoon s.sectorMinimum s.lineCount q (stepCount s.lineCount q pos) r.lastTime.isSome
    ((t : Int) - (r.reference : Int)) = true ↔ isTooSoon s r q pos t := by
  unfold tooSoon isTooSoon
  rw [minimumSum_eq]
  cases r.lastTime <;> simp [State.sectorMinimum, Record.reference, Record.since]

theorem State.lineTest_tooSoon (hq : q < s.lineCount) (hpos : pos < s.lineCount) (h : ¬ isEcho s r q pos t)
    (hsoon : isTooSoon s r q pos t) : s.lineTest q r.lastTime r.reference pos t = .rejected .tooSoon := by
  rw [State.lineTest_steps hq hpos h, if_pos (tooSoon_iff.2 hsoon)]

theorem State.lineTest_passes (hq : q < s.lineCount) (hpos : pos < s.lineCount) (h : ¬ isEcho s r q pos t)
    (hsoon : ¬ isTooSoon s r q pos t) :
    s.lineTest q r.lastTime r.reference pos t = .steps (stepCount s.lineCount q pos) := by
  rw [State.lineTest_steps hq hpos h, if_neg fun hs => hsoon (tooSoon_iff.1 hs)]

end

/-! ## A line passing in line scoring's hands (R70, R79) -/

section
variable {s : State} {l : LinkNo} {code slot : Nat} {p : OpenPassing} {r : Record} {pos : Nat}

theorem State.seeing_course (hr : s.record? slot = some r) : SameCourse s (s.seeing l code slot p r) :=
  (RaceStep.putRecord (s := s.gone l code) (r' := r.seen l p) hr rfl).course (s.gone_course l code) (State.putRecord_session ..)

theorem State.dispatch_line {v : State} {x : Record} (hphase : scoringPhase v.session.phase = true)
    (hx : v.record? slot = some x) (hrole : (v.link l).role = .line) (hpos : (v.link l).linePos = some pos) (t : Nat) :
    v.dispatch slot l t = v.dispatchLine slot x l pos t := by
  unfold State.dispatch
  rw [if_pos hphase, hx]
  dsimp only
  rw [hrole, hpos]
  rfl

theorem State.seeing_link : ((s.seeing l code slot p r).link l) =
    { s.link l with passings := (s.link l).passings.remove code } := by
  rw [State.link, State.seeing_links]
  exact State.gone_link_self

/-- The event of a line passing for a record on the track. -/
theorem exec_closeExpiry_line (h : PassingOf s l code slot p r) (hrole : (s.link l).role = .line)
    (hpos : (s.link l).linePos = some pos) (htrack : r.state = .enrolled ∨ r.state = .running) :
    exec (.closeExpiry l code) s =
      .next (closeEvent s ((s.seeing l code slot p r).scoreLine slot l pos p.time)) := by
  obtain ⟨-, -, hdue, hcode, hr, hphase⟩ := h
  have hroll : s.session.phase ≠ .rolling := by rcases hphase with h | h | h <;> rw [h] <;> simp
  rw [exec_closeExpiry_seeing hdue hroll hcode hr,
    State.dispatch_line (x := r.seen l p) (by rw [State.seeing_session]; exact (scoringPhase_iff _).2 hphase)
      State.seeing_record (by rw [State.seeing_link]; exact hrole) (by rw [State.seeing_link]; exact hpos)]
  unfold State.dispatchLine
  rcases htrack with h | h
  · rw [show (r.seen l p).state = .enrolled from h]
  · rw [show (r.seen l p).state = .running from h]

theorem State.scoreLine_rejected {v : State} {x : Record} {q t : Nat} {why : Reason} (hx : v.record? slot = some x)
    (hlast : x.lastPos = some q) (htest : v.lineTest q x.lastTime x.reference pos t = .rejected why) :
    v.scoreLine slot l pos t = v.reject slot l t why := by
  unfold State.scoreLine
  rw [hx]
  dsimp only
  rw [hlast]
  dsimp only
  rw [htest]

/-- What a rejected passing leaves: the sighting, the rejection and its notice (R72, R83, R105). -/
theorem closeEvent_rejected (h : PassingOf s l code slot p r) (why : Reason) :
    Rejects s (closeEvent s ((s.seeing l code slot p r).reject slot l p.time why)) l code slot p r why := by
  obtain ⟨hs, htable, -, -, hr, -⟩ := h
  have hwrite : (s.seeing l code slot p r).reject slot l p.time why =
      (s.gone l code).putRecord slot ((r.seen l p).reject l p.time why) :=
    State.updRecord_putRecord fun hback => by
      have hx : (r.seen l p).reject l p.time why = r := Option.some.inj (hback.symm.trans hr)
      rw [Record.seen_of_sighting (l := l) (p := p) (x := (r.seen l p).reject l p.time why) rfl hx]
      exact hr
  rw [hwrite]
  obtain ⟨hgone, hindex, horder, hsession, hfollows, hothers, hself⟩ :=
    closeEvent_rewritten (l := l) (code := code) (r' := (r.seen l p).reject l p.time why) hs htable.1 hr
      (fun _ => rfl) rfl rfl
  exact ⟨hgone, hindex, horder, hsession, hfollows, hothers, hself⟩

end

/-- Settles O36, by the two tests that reject a line passing. -/
theorem passingRejected : Obligations.PassingRejected := by
  intro s l code slot p r pos q ⟨hof, hrole, hlink, hpos, hrun, hlast, hq, _⟩
  refine ⟨_, exec_closeExpiry_line hof hrole hlink (.inr hrun), fun hbad => ?_⟩
  have hcourse := State.seeing_course (l := l) (code := code) (p := p) (show s.record? slot = some r from hof.2.2.2.2.1)
  have hrejected : ∀ why, s.lineTest q r.lastTime r.reference pos p.time = .rejected why →
      Rejects s (closeEvent s ((s.seeing l code slot p r).scoreLine slot l pos p.time)) l code slot p r why :=
    fun why htest => by
      rw [State.scoreLine_rejected (x := r.seen l p) (why := why) State.seeing_record hlast
        (by rw [hcourse.lineTest]; exact htest)]
      exact closeEvent_rejected hof why
  by_cases hecho : isEcho s r q pos p.time
  · obtain ⟨hgone, hindex, horder, hsession, hfollows, hothers, hself⟩ :=
      hrejected .echo (State.lineTest_echo hq hpos hecho)
    exact ⟨hgone, hindex, horder, hsession, hfollows, hothers, .echo, hself, fun _ => rfl, fun h => absurd hecho h⟩
  · obtain ⟨hgone, hindex, horder, hsession, hfollows, hothers, hself⟩ :=
      hrejected .tooSoon (State.lineTest_tooSoon hq hpos hecho (hbad.resolve_left hecho))
    exact ⟨hgone, hindex, horder, hsession, hfollows, hothers, .tooSoon, hself, fun h => absurd h hecho, fun _ => rfl⟩

end Sys2Proof.Machine
end

section
/-! A record written and brought to its place, and its crossing of the line (R74, R116, R119, R120, R124). -/

namespace Sys2Proof.Machine

/-! ## A record brought to its place -/

/-- What a passing that writes one record keeps before its event ends: the list agrees with the keys, the reporting unit
has been told, the session is as it was, and no other record changed but in its place. -/
structure Keyed (b z : State) (slot : Nat) : Prop where
  told : Told b z []
  agrees : z.orderAgrees
  others : OthersOnlyPlaced b z slot
  session : z.session = b.session
  step : RaceStep b z

theorem OthersOnlyPlaced.of_reorder {b u : State} {slot : Nat} (h : ∀ n, n ≠ slot → u.record? n = b.record? n) :
    OthersOnlyPlaced b u.reorder slot := by
  intro n hn
  rw [← h n hn]
  exact u.reorder_everyOnlyPlaced n

theorem OthersOnlyPlaced.congr {b u v : State} {slot : Nat} (h : OthersOnlyPlaced b u slot)
    (hv : ∀ n, n ≠ slot → v.record? n = u.record? n) : OthersOnlyPlaced b v slot := by
  intro n hn
  rw [hv n hn]
  exact h n hn

theorem State.reorder_order (u : State) : u.reorder.order = { u.order with list := u.reorder.order.list } := by
  obtain ⟨c, -, h⟩ := u.reorder_eq
  rw [h]

/-- A record of the list, brought to its place, has a position and the gap it had. -/
theorem State.reorder_record_in {u : State} (hw : u.table.records.wf) {n : Nat} {x : Record} (hx : u.record? n = some x)
    (hin : stateInOrder x.state = true) :
    ∃ y, u.reorder.record? n = some y ∧ OnlyPlaced x y ∧ y.position.isSome = true ∧ y.gap = x.gap := by
  have hplaced := u.reorder_everyOnlyPlaced n
  rw [hx] at hplaced
  cases hy : u.reorder.record? n with
  | none => simp [hy] at hplaced
  | some y =>
    simp only [hy] at hplaced
    have hsome : y.position.isSome = true := by
      have hwf : u.reorder.table.records.wf := by rw [KeyMap.wf, (RaceStep.reorder u).keys hw]; exact hw
      rw [u.reorder_agrees.position_isSome hwf hy, hplaced.state]
      exact hin
    exact ⟨y, rfl, hplaced, hsome, hplaced.2.1 hsome⟩

section Written
variable {b : State} {slot : Nat} {r x : Record}

/-- A record of the list written with its position and gap as they were, and the list brought to the keys. -/
theorem State.reorder_written (hs : b.settled) (hw : b.table.records.wf) (hr : b.record? slot = some r)
    (hident : x.identity = r.identity) (hposition : x.position = r.position)
    (hin : stateInOrder x.state = true) :
    Keyed b (b.putRecord slot x).reorder slot ∧
    ∃ y, (b.putRecord slot x).reorder.record? slot = some y ∧ OnlyPlaced x y ∧ y.position.isSome = true ∧
      y.gap = x.gap := by
  have htold : Told b (b.putRecord slot x) [] :=
    (Told.refl hw).putRecord hr fun h => Option.some.inj (h.symm.trans hr)
  have hlist : (b.putRecord slot x).order.list = b.order.list := congrArg OrderBlock.list (State.putRecord_order ..)
  have hself : (b.putRecord slot x).record? slot = some x := State.putRecord_record_self ..
  have hother : ∀ n, n ≠ slot → (b.putRecord slot x).record? n = b.record? n := fun n hn =>
    State.putRecord_record_ne b x hn
  have hrecorded : Recorded b (b.putRecord slot x) [] := .putRecord hs hw hr hposition (.inr hin)
  obtain ⟨y, hy, hplaced, hsome, hkept⟩ := State.reorder_record_in htold.wf hself hin
  refine ⟨⟨htold.reorder hlist (fun _ p hp => ?_) fun n hn => ?_, State.reorder_agrees _, .of_reorder hother,
    (State.reorder_session _).trans (State.putRecord_session ..),
    (RaceStep.putRecord hr hident).trans (.reorder _)⟩, y, hy, hplaced, hsome, hkept⟩
  · rw [hlist]
    exact hrecorded.places p.1 p.2 (KeyMap.find_of_mem htold.wf hp)
  · by_contra hne
    exact hrecorded.seen hs n hne hn

theorem OrderBlock.outcome_of_list (o : OrderBlock) (xs : List Nat) (lines c t : Nat) :
    OrderBlock.outcome { o with list := xs } lines c t = o.outcome lines c t := rfl

theorem OrderBlock.take_of_list (o : OrderBlock) (xs : List Nat) (lines c t : Nat) :
    OrderBlock.take { o with list := xs } lines c t = { o.take lines c t with list := xs } := by
  unfold OrderBlock.take
  rw [OrderBlock.outcome_of_list]
  dsimp only
  split <;> rfl

theorem State.crossing_unstarted {u : State} {y : Record} (hy : u.reorder.record? slot = some y)
    (h : y.started = false) (t : Nat) : u.crossing slot t = u.reorder := by
  unfold State.crossing
  dsimp only
  rw [hy]
  exact if_neg (Bool.eq_false_iff.1 h)

theorem State.crossing_started {u : State} {y : Record} (hy : u.reorder.record? slot = some y)
    (h : y.started = true) (t : Nat) : u.crossing slot t =
    ({ u.reorder with order :=
        u.reorder.order.take u.reorder.lineCount (y.crossingIndex u.reorder.lineCount) t } : State).putRecord slot
      { y with gap := some (u.reorder.order.outcome u.reorder.lineCount (y.crossingIndex u.reorder.lineCount) t).gap } := by
  unfold State.crossing
  dsimp only
  rw [hy]
  exact if_pos h

theorem OnlyPlaced.crossingIndex {y : Record} (h : OnlyPlaced x y) (lines : Nat) :
    y.crossingIndex lines = x.crossingIndex lines := by
  rw [h.1]
  rfl

/-- What a crossing makes of its record, of the list and of the lead table (R119, R120, R124). -/
theorem State.crossing_written (hs : b.settled) (hw : b.table.records.wf) (hr : b.record? slot = some r)
    (hident : x.identity = r.identity) (hposition : x.position = r.position) (hgap : x.gap = r.gap)
    (hin : stateInOrder x.state = true) (t : Nat) :
    let z := (b.putRecord slot x).crossing slot t
    let c := x.crossingIndex b.lineCount
    Keyed b z slot ∧
    (∃ y, z.record? slot = some y ∧ y.position.isSome = true ∧
      y = { x with
        position := y.position,
        notices := if y.position = x.position then x.notices else addNotice x.notices .position,
        gap := if x.started then some (b.order.outcome b.lineCount c t).gap else x.gap }) ∧
    (x.started = false → KeepsLead b z) ∧
    (x.started = true → z.order.lead = (b.order.take b.lineCount c t).lead ∧
      z.order.highest = (b.order.take b.lineCount c t).highest) := by
  obtain ⟨hkeyed, y, hy, hplaced, hsome, hkept⟩ := State.reorder_written hs hw hr hident hposition hin
  intro z c
  let w := (b.putRecord slot x).reorder
  have hlines : w.lineCount = b.lineCount := State.lineCount_of_links hkeyed.step.links
  have horder : w.order = { b.order with list := w.order.list } := by
    have h := (b.putRecord slot x).reorder_order
    rwa [State.putRecord_order] at h
  have hstarted : y.started = x.started := (congrArg Record.started hplaced.1 :)
  by_cases hx : x.started = true
  case neg =>
    have hz : z = w := State.crossing_unstarted hy (hstarted.trans (Bool.eq_false_iff.2 hx)) t
    rw [hz, if_neg hx, ← hkept]
    exact ⟨hkeyed, ⟨y, hy, hsome, hplaced.1⟩,
      fun _ => ⟨(congrArg OrderBlock.lead horder :), (congrArg OrderBlock.highest horder :)⟩, fun h => absurd h hx⟩
  case pos =>
    let g := (b.order.outcome b.lineCount c t).gap
    let v : State := { w with order := { b.order.take b.lineCount c t with list := w.order.list } }
    have hz : z = v.putRecord slot { y with gap := some g } := by
      refine (State.crossing_started hy (hstarted.trans hx) t).trans ?_
      rw [hplaced.crossingIndex]
      change State.putRecord { w with order := w.order.take w.lineCount (x.crossingIndex w.lineCount) t } _
        { y with gap := some (w.order.outcome w.lineCount (x.crossingIndex w.lineCount) t).gap } = _
      rw [hlines, horder, OrderBlock.take_of_list, OrderBlock.outcome_of_list]
    have hvrec : v.record? slot = some y := hy
    have hback : b.record? slot = some { y with gap := some g } → { y with gap := some g } = y := fun h => by
      have he : { y with gap := some g } = r := Option.some.inj (h.symm.trans hr)
      have hg : y.gap = some g := by rw [hkept, hgap, ← he]
      rw [← hg]
    have hvagrees : v.orderAgrees := hkeyed.agrees
    rw [hz, if_pos hx]
    refine ⟨⟨(hkeyed.told.of_same (v := v) rfl rfl rfl).putRecord hvrec hback,
      hvagrees.putRecord hkeyed.told.wf hvrec (fun _ => rfl) rfl (.inr hsome),
      hkeyed.others.congr fun n hn => State.putRecord_record_ne v _ hn, (State.putRecord_session ..).trans hkeyed.session,
      (hkeyed.step.trans (.setOrder w _)).trans (.putRecord hvrec rfl)⟩, ⟨_, State.putRecord_record_self .., hsome, ?_⟩,
      fun h => absurd hx (Bool.eq_false_iff.1 h), fun _ => ?_⟩
    · exact congrArg (fun o : Record => { o with gap := some g }) hplaced.1
    · rw [State.putRecord_order]
      exact ⟨rfl, rfl⟩

end Written

/-! ## The end of the event -/

/-- The event of a passing that is scored. -/
theorem Keyed.scored {s z : State} {l : LinkNo} {code slot : Nat} (h : Keyed (s.gone l code) z slot) (hs : s.settled) :
    Scored s (closeEvent s z) l code slot ∧ (closeEvent s z).session = s.session ∧
    (closeEvent s z).table = z.table ∧ (closeEvent s z).order = z.order := by
  obtain ⟨hrace, horder⟩ := closeEvent_race_of_agrees (s := s) h.agrees
  have hrec : ∀ n, (closeEvent s z).record? n = z.record? n := fun n => by rw [State.record?, hrace, State.record?]
  exact ⟨⟨h.step.passingGone, h.step.keepsIndex, OthersOnlyPlaced.congr (b := s) h.others fun n _ => hrec n,
    closeEvent_agrees s z, h.told.follows (s := s.gone l code) hs h.agrees (by simp)⟩,
    (closeEvent_session s z).trans h.session, hrace, horder⟩

end Sys2Proof.Machine
end

section
/-! The words of line scoring: sectors, unseen loops, deltas, laps and bests (R84 to R98, R101). -/

namespace Sys2Proof.Machine

/-! ## Sectors (R84) -/

theorem paintFrom_eq (i lo hi : Nat) (e : SectorEntry) (xs : List SectorEntry) :
    paintFrom i lo hi e xs = xs.mapIdx fun j x => if lo ≤ i + j ∧ i + j < hi then e else x := by
  induction xs generalizing i with
  | nil => rfl
  | cons x xs ih =>
    rw [paintFrom, ih, List.mapIdx_cons]
    refine congrArg (fun f => _ :: xs.mapIdx f) (funext fun j => funext fun y => ?_)
    rw [Nat.add_right_comm, Nat.add_assoc]

theorem paint_eq_spanned (xs : List SectorEntry) (lo hi : Nat) (e : SectorEntry) : paint xs lo hi e = spanned xs lo hi e := by
  rw [paint, paintFrom_eq]
  simp only [Nat.zero_add, spanned]

theorem length_spanned (xs : List SectorEntry) (lo hi : Nat) (e : SectorEntry) : (spanned xs lo hi e).length = xs.length := by
  simp [spanned]

/-! ## Unseen loops (R85, R86, R101) -/

theorem State.excused_iff (s : State) (a b j : Nat) : s.excused a b j = true ↔ loopExcused s j a b := by
  have hseen : ∀ o : Period, (s.outageSeen b o).overlaps a b = true ↔ (o.start ≤ b ∨ o.start = s.now) ∧ a ≤ o.stop.getD b := by
    intro o
    unfold State.outageSeen
    split
    · simp [Period.overlaps, *]
    · simp [Period.overlaps, *]
  have houtage : ((s.linkAt j).bind (·.outage)).any (fun o => (s.outageSeen b o).overlaps a b) = true ↔
      ∃ k o, s.linkAt j = some k ∧ k.outage = some o ∧ (o.start ≤ b ∨ o.start = s.now) ∧ a ≤ o.stop.getD b := by
    cases s.linkAt j with
    | none => simp
    | some k => cases h : k.outage <;> simp [h, hseen]
  have hsuspension : s.session.suspension.any (fun o => o.overlaps a b) = true ↔
      ∃ o ∈ s.session.suspension, o.start ≤ b ∧ a ≤ o.stop.getD b := by
    cases s.session.suspension <;> simp [Period.overlaps]
  rw [State.excused, Bool.or_eq_true, houtage, hsuspension]
  rfl

/-- The entry of a stretch of more than one step (R86). -/
theorem State.unseenStatus_cases (s : State) (q n a b : Nat) :
    s.unseenStatus q n a b = .excused ∧ (∀ i, i < n → loopExcused s ((q + 1 + i) % s.lineCount) a b) ∨
    s.unseenStatus q n a b = .missed ∧ ∃ i, i < n ∧ ¬ loopExcused s ((q + 1 + i) % s.lineCount) a b := by
  by_cases h : ∀ i, i < n → loopExcused s ((q + 1 + i) % s.lineCount) a b
  · refine .inl ⟨if_pos ?_, h⟩
    rw [List.all_eq_true]
    exact fun i hi => (s.excused_iff a b _).2 (h i (List.mem_range.1 hi))
  · refine .inr ⟨if_neg fun hall => h fun i hi => ?_, by simpa using h⟩
    exact (s.excused_iff a b _).1 (List.all_eq_true.1 hall i (List.mem_range.2 hi))

theorem State.spannedEntry_spans (s : State) (r : Record) (q n t : Nat) : SpanEntry s r q n t (s.spannedEntry r q n t) := by
  refine ⟨fun h => ?_, fun h => ?_⟩
  · rw [State.spannedEntry, if_pos h]
    cases r.lastTime <;> rfl
  · rw [State.spannedEntry, if_neg h]
    exact s.unseenStatus_cases q (n - 1) r.since t

/-- The entry of a stretch that ends unseen, as before a pit entry (R106). -/
theorem State.unseenStatus_spans (s : State) (r : Record) {q u t : Nat} (h : u ≠ 0) :
    SpanEntry s r q (u + 1) t (s.unseenStatus q u r.reference t) :=
  ⟨fun h1 => absurd (by omega) h, fun _ => s.unseenStatus_cases q u r.since t⟩

/-! ## Deltas (R96 to R98) -/

theorem sectorSum_of_present {xs : List (Option Nat)} {n : Nat} (hn : n ≤ xs.length)
    (h : ∀ i, i < n → xs.getD i none ≠ none) : sectorSum xs n = some (((xs.take n).map (·.getD 0)).sum) := by
  induction n with
  | zero => rfl
  | succ n ih =>
    obtain ⟨a, ha⟩ := Option.ne_none_iff_exists'.1 (h n (Nat.lt_succ_self n))
    have hget : xs[n]'hn = some a := by
      rw [← ha, List.getD_eq_getElem _ _ hn]
    rw [sectorSum, ih (by omega) fun i hi => h i (by omega), ha, List.take_succ_eq_append_getElem hn, hget]
    simp

theorem sectorSum_of_absent {xs : List (Option Nat)} {n i : Nat} (hi : i < n) (h : xs.getD i none = none) :
    sectorSum xs n = none := by
  induction n with
  | zero => exact absurd hi (Nat.not_lt_zero i)
  | succ n ih =>
    rw [sectorSum]
    by_cases hn : i = n
    · rw [← hn, h]
      cases sectorSum xs i <;> rfl
    · rw [ih (by omega)]

theorem Record.runningDelta_formed {r : Record} {pos t u : Nat} {b : BestLap} (hu : r.lapStart = some u)
    (hb : r.bestLap = some b) (hlen : pos ≤ b.sectors.length) (h : ∀ i, i < pos → b.sectors.getD i none ≠ none) :
    r.runningDelta pos t = some (inDeltaRange (((t : Int) - (u : Int)) -
      ((((b.sectors.take pos).map (·.getD 0)).sum : Nat) : Int))) := by
  unfold Record.runningDelta
  rw [hu, hb]
  dsimp only
  rw [sectorSum_of_present hlen h]
  rfl

theorem Record.runningDelta_none {r : Record} {pos t : Nat} (h : r.lapStart = none ∨ r.bestLap = none ∨
    ∃ b i, r.bestLap = some b ∧ i < pos ∧ b.sectors.getD i none = none) : r.runningDelta pos t = none := by
  unfold Record.runningDelta
  rcases h with h | h | ⟨b, i, hb, hi, hnone⟩
  · rw [h]
  · rw [h]
    cases r.lapStart <;> rfl
  · rw [hb]
    cases r.lapStart with
    | none => rfl
    | some u =>
      dsimp only
      rw [sectorSum_of_absent hi hnone]
      rfl

theorem deltaCrosses_eq (dir : DeltaDirection) (a b : Option Int) :
    deltaCrosses dir a b = a.any fun x => b.any fun y => signChange dir x y := by
  unfold deltaCrosses signChange
  cases a with
  | none => rfl
  | some x =>
    cases b with
    | none => rfl
    | some y => cases dir <;> simp

theorem Record.previousDelta_any (r : Record) {q : Nat} (hq : r.lastPos = some q) (f : Int → Bool) :
    r.previousDelta.any f = (decide (q ≠ 0) && r.lastTime.isSome && r.delta.any f) := by
  unfold Record.previousDelta
  rw [hq]
  cases r.lastTime with
  | none => simp
  | some u => by_cases h : q = 0 <;> simp [h]

theorem hasNotice_addIf (m : Mask 7) (b : Bool) (c d : Notice) :
    hasNotice (if b then addNotice m d else m) c = (hasNotice m c || (decide (c = d) && b)) := by
  cases b with
  | false => simp
  | true => simp [hasNotice_addNotice, eq_comm]

/-! ## Bests (R93 to R95) -/

theorem trueTime_eq (e : SectorEntry) : trueTime e = bestEntry e := by
  cases e <;> simp [trueTime, bestEntry, overRange]

theorem clearOf_all (m : Mask 4) : clearOf m [.caution, .suspended, .pit, .out] = decide (m = 0#4) := by
  revert m
  decide

theorem LastLap.eligibleTime_eq (x : LastLap) : x.eligibleTime = match x.time with
    | .timed t => if t ≠ 4294967295 ∧ x.flags = 0#4 then some t else none
    | .unseen | .untimed => none := by
  unfold LastLap.eligibleTime
  rw [clearOf_all]
  cases x.time with
  | timed t => simp [overRange]
  | unseen => rfl
  | untimed => rfl

theorem beats_iff (t : Nat) (held : Option BestLap) :
    beats t (held.map (·.time)) = true ↔ ∀ b ∈ held, t < b.time := by
  cases held <;> simp [beats]

/-- The best lap is replaced by an eligible lap that beats it (R93, R94). -/
theorem bestAfter_eq (held : Option BestLap) (x : LastLap) (setAt : Nat) : bestAfter held x setAt =
    match x.eligibleTime with
    | some t =>
      if beats t (held.map (·.time)) then
        some { time := t, number := x.number, setTime := setAt, sectors := x.sectors.map trueTime }
      else held
    | none => held := by
  have hmap : x.sectors.map trueTime = x.sectors.map bestEntry := by rw [funext trueTime_eq]
  unfold bestAfter
  rw [LastLap.eligibleTime_eq, hmap]
  cases x.time with
  | unseen => rfl
  | untimed => rfl
  | timed t =>
    by_cases hok : t ≠ 4294967295 ∧ x.flags = 0#4
    · simp only [hok, ne_eq, not_false_eq_true, and_self, true_and, if_true, beats_iff]
    · dsimp only
      rw [if_neg fun h => hok ⟨h.1, h.2.1⟩, if_neg hok]

theorem Record.judgeLap_bestLap (r : Record) (x : LastLap) (setAt : Nat) :
    (r.judgeLap x setAt).bestLap = bestAfter r.bestLap x setAt ∧
    (r.judgeLap x setAt).notices =
      if bestAfter r.bestLap x setAt = r.bestLap then r.notices else addNotice r.notices .newBest := by
  have hbest := bestAfter_eq r.bestLap x setAt
  unfold Record.judgeLap
  cases helig : x.eligibleTime with
  | none =>
    rw [helig] at hbest
    rw [hbest]
    simp
  | some t =>
    rw [helig] at hbest
    dsimp only at hbest ⊢
    by_cases hb : beats t (r.bestLap.map (·.time)) = true
    · rw [if_pos hb] at hbest ⊢
      have hnew : some { time := t, number := x.number, setTime := setAt, sectors := x.sectors.map trueTime } ≠
          r.bestLap := fun h => Nat.lt_irrefl _ ((beats_iff t _).1 hb _ h.symm)
      rw [hbest, if_neg hnew]
      exact ⟨rfl, rfl⟩
    · rw [if_neg hb] at hbest ⊢
      rw [hbest]
      simp

theorem betterSector_eq (e : SectorEntry) (b : Option Nat) : betterSector e b = match bestEntry e, b with
    | some t, some u => some (min t u)
    | some t, none => some t
    | none, b => b := by
  unfold betterSector
  rw [trueTime_eq]
  cases bestEntry e with
  | none => rfl
  | some t =>
    cases b with
    | none => rfl
    | some u =>
      by_cases h : t < u
      · simp [beats, h, Nat.min_eq_left (Nat.le_of_lt h)]
      · simp [beats, h, Nat.min_eq_right (Nat.le_of_not_lt h)]

theorem betterSectors_eq {es : List SectorEntry} {bs : List (Option Nat)} (h : bs.length = es.length) :
    betterSectors es bs = List.zipWith (fun b e => betterSector e b) bs es := by
  induction es generalizing bs with
  | nil =>
    cases bs with
    | nil => rfl
    | cons b bs => simp at h
  | cons e es ih =>
    cases bs with
    | nil => simp at h
    | cons b bs =>
      rw [betterSectors, ih (by simpa using h)]
      rfl

theorem Record.judgeSectors_bestSectors (r : Record) {x : LastLap} (h : r.bestSectors.length = x.sectors.length) :
    (r.judgeSectors x).bestSectors = bestSectorsAfter r.bestSectors x := by
  unfold Record.judgeSectors bestSectorsAfter
  rw [betterSectors_eq h]
  by_cases hc : hasLap x.flags .caution = true
  · simp [clearOf, hc]
  · by_cases hs : hasLap x.flags .suspended = true
    · simp [clearOf, hs]
    · rw [if_pos (by simp [clearOf, hc, hs]), if_neg (by simp [hc, hs])]
      exact congrArg (fun f => List.zipWith f r.bestSectors x.sectors)
        (funext fun b => funext fun e => betterSector_eq e b)

end Sys2Proof.Machine
end

section
/-! Line passings that complete no lap (R80, R84 to R86, R90, R96, R98, R124). -/

namespace Sys2Proof.Machine

/-! ## The record written after its sighting -/

section
variable {s : State} {l : LinkNo} {code slot : Nat} {p : OpenPassing} {r x : Record}

theorem State.seeing_putRecord (hr : s.record? slot = some r) (hx : x.sighting = (r.seen l p).sighting) :
    (s.seeing l code slot p r).putRecord slot x = (s.gone l code).putRecord slot x :=
  State.putRecord_putRecord fun hback => by
    rw [Record.seen_of_sighting hx (Option.some.inj (hback.symm.trans hr))]
    exact hr

/-- The event of a passing whose record crosses the line as `x` (R99, R124). -/
theorem closeEvent_crossing (h : PassingOf s l code slot p r) (hident : x.identity = r.identity)
    (hposition : x.position = r.position) (hgap : x.gap = r.gap) (hin : stateInOrder x.state = true) :
    let t := closeEvent s (((s.gone l code).putRecord slot x).crossing slot p.time)
    let c := x.crossingIndex s.lineCount
    Scored s t l code slot ∧ t.session = s.session ∧
    (∃ y, t.record? slot = some y ∧ y.position.isSome = true ∧
      y = { x with
        position := y.position,
        notices := if y.position = x.position then x.notices else addNotice x.notices .position,
        gap := if x.started then some (s.order.outcome s.lineCount c p.time).gap else x.gap }) ∧
    (x.started = false → KeepsLead s t) ∧
    (x.started = true → t.order.lead = (s.order.take s.lineCount c p.time).lead ∧
      t.order.highest = (s.order.take s.lineCount c p.time).highest) := by
  obtain ⟨hs, htable, -, -, hr, -⟩ := h
  have hlines : (s.gone l code).lineCount = s.lineCount := (s.gone_course l code).lineCount
  obtain ⟨hkeyed, ⟨y, hy, hsome, heq⟩, hkeeps, htakes⟩ := State.crossing_written (b := s.gone l code) hs htable.1 hr
    hident hposition hgap hin p.time
  obtain ⟨hscored, hsession, hrace, horder⟩ := hkeyed.scored hs
  rw [hlines] at heq htakes
  intro t c
  refine ⟨hscored, hsession, ⟨y, ?_, hsome, heq⟩, fun hno => ?_, fun hyes => ?_⟩
  · rw [State.record?, hrace]
    exact hy
  · unfold KeepsLead
    rw [horder]
    exact hkeeps hno
  · rw [horder]
    exact htakes hyes

end

theorem Record.crossingIndex_eq {x : Record} {pos : Nat} (hstarted : x.started = true) (hpos : x.lastPos = some pos)
    (lines : Nat) : x.crossingIndex lines = x.laps * lines + (pos + 1) := by
  rw [Record.crossingIndex, Record.progress, if_pos hstarted, hpos]

/-! ## A first line passing (R80) -/

theorem State.elapsedAt_eq (s : State) (t : Nat) : s.elapsedAt t = elapsedIn s t := rfl

/-- Settles O37: the record is written by `Record.firstLine` and crosses the line. -/
theorem firstLinePassing : Obligations.FirstLinePassing := by
  intro s l code slot p r pos hof hrole hlink htrack hlast started c
  have hr : s.record? slot = some r := hof.2.2.2.2.1
  have hcourse := State.seeing_course (l := l) (code := code) (p := p) hr
  let x := (r.seen l p).firstLine (decide (s.session.phase = .caution)) pos p.time (s.elapsedAt p.time)
  have hscore : (s.seeing l code slot p r).scoreLine slot l pos p.time =
      ((s.gone l code).putRecord slot x).crossing slot p.time := by
    unfold State.scoreLine
    rw [State.seeing_record]
    dsimp only
    rw [show (r.seen l p).lastPos = none from hlast]
    dsimp only
    rw [State.firstLine, State.seeing_session, hcourse.elapsedAt]
    exact congrArg (State.crossing · slot p.time) (State.seeing_putRecord (x := x) hr rfl)
  have hstarted : x.started = started := by
    by_cases hpos : pos = 0 <;> simp [x, started, Record.firstLine, hpos, Record.seen]
  have hx : x = { r.seen l p with
      state := .running, lapStart := if pos = 0 then some p.time else r.lapStart, started := started,
      elapsed := if pos = 0 then some (elapsedIn s p.time) else r.elapsed,
      lastPos := some pos, lastTime := some p.time, latest := some p.time, delta := none,
      lapFlags := if s.session.phase = .caution then addLap r.lapFlags .caution else r.lapFlags } := by
    rw [← hstarted]
    by_cases hphase : s.session.phase = .caution <;> simp [x, Record.firstLine, Record.seen, State.elapsedAt_eq, hphase]
  obtain ⟨hscored, hsession, ⟨y, hy, hsome, heq⟩, hkeeps, htakes⟩ :=
    closeEvent_crossing (x := x) hof rfl rfl rfl rfl
  rw [hstarted] at hkeeps htakes
  have hindex : started = true → x.crossingIndex s.lineCount = c := fun h =>
    Record.crossingIndex_eq (hstarted.trans h) rfl s.lineCount
  refine ⟨_, y, exec_closeExpiry_line hof hrole hlink htrack, ?_⟩
  rw [hscore]
  refine ⟨hscored, hsession, hy, hsome, heq.trans ?_, hkeeps, fun h => by rw [← hindex h]; exact htakes h⟩
  have hgap : (if x.started then some (s.order.outcome s.lineCount (x.crossingIndex s.lineCount) p.time).gap else x.gap) =
      if started then some (s.order.outcome s.lineCount c p.time).gap else r.gap := by
    rw [hstarted]
    split
    · rw [hindex ‹_›]
    · rfl
  rw [hgap]
  exact congrArg (fun z : Record => { z with
    position := y.position,
    notices := if y.position = r.position then r.notices else addNotice r.notices .position,
    gap := if started then some (s.order.outcome s.lineCount c p.time).gap else r.gap }) hx

end Sys2Proof.Machine
end

section
/-! A stepped line passing (R84 to R90, R96 to R99). -/

namespace Sys2Proof.Machine

/-! ## Where a stepped passing goes -/

theorem State.scoreLine_stepped {v : State} {l : LinkNo} {slot q pos k t : Nat} {x : Record} (hx : v.record? slot = some x)
    (hlast : x.lastPos = some q) (htest : v.lineTest q x.lastTime x.reference pos t = .steps k) :
    v.scoreLine slot l pos t = v.scoreStep slot x q k pos t := by
  unfold State.scoreLine
  rw [hx]
  dsimp only
  rw [hlast]
  dsimp only
  rw [htest]

/-- A stepped passing leaves its record's identity, its sighting and its place. -/
theorem State.steppedRecord_place (s : State) (r : Record) (q k p t : Nat) :
    (s.steppedRecord r q k p t).identity = r.identity ∧ (s.steppedRecord r q k p t).sighting = r.sighting ∧
    (s.steppedRecord r q k p t).position = r.position ∧ (s.steppedRecord r q k p t).gap = r.gap := by
  unfold State.steppedRecord
  dsimp only
  split
  · rw [Record.completeLap_eq]
    split <;> exact ⟨rfl, rfl, rfl, rfl⟩
  · exact ⟨rfl, rfl, rfl, rfl⟩

section
variable {s : State} {l : LinkNo} {code slot : Nat} {p : OpenPassing} {r : Record} {pos q : Nat}

/-- The part once a stepped passing is written and handed on as a crossing. -/
def State.crossed (s : State) (l : LinkNo) (code slot : Nat) (x : Record) (t : Nat) : State :=
  ((s.gone l code).putRecord slot x).crossing slot t

theorem exec_closeExpiry_stepped (h : LinePassing s l code slot p r pos q) (hecho : ¬ isEcho s r q pos p.time)
    (hsoon : ¬ isTooSoon s r q pos p.time) :
    let n := stepCount s.lineCount q pos
    let z := s.crossed l code slot (s.steppedRecord (r.seen l p) q n pos p.time) p.time
    exec (.closeExpiry l code) s = .next (closeEvent s
      ((if completes s.lineCount q n then z.completion slot s.session.phase else z).finishIfChequered slot
        (completes s.lineCount q n) (if pos = 0 then some p.time else none))) := by
  obtain ⟨hof, hrole, hlink, hpos, hrun, hlast, hq, -⟩ := h
  have hr : s.record? slot = some r := hof.2.2.2.2.1
  have hcourse := State.seeing_course (l := l) (code := code) (p := p) hr
  intro n z
  have htest : (s.seeing l code slot p r).lineTest q (r.seen l p).lastTime (r.seen l p).reference pos p.time = .steps n := by
    rw [hcourse.lineTest]
    exact State.lineTest_passes hq hpos hecho hsoon
  have hwrite : ((s.seeing l code slot p r).putRecord slot (s.steppedRecord (r.seen l p) q n pos p.time)).crossing slot
      p.time = z :=
    congrArg (State.crossing · slot p.time)
      (State.seeing_putRecord hr (s.steppedRecord_place (r.seen l p) q n pos p.time).2.1)
  rw [exec_closeExpiry_line hof hrole hlink (.inr hrun),
    State.scoreLine_stepped (x := r.seen l p) State.seeing_record hlast htest, State.scoreStep]
  rw [hcourse.steppedRecord, hcourse.lineCount, State.seeing_session, hwrite]

/-- A passing that stays within the lap lies as many positions on. -/
theorem stepCount_within {lines : Nat} (hq : q < lines) (hpos : pos < lines) (h : q + stepCount lines q pos < lines) :
    q + stepCount lines q pos = pos ∧ pos ≠ 0 := by
  have hne : pos ≠ q := fun he => by
    rw [stepCount, if_pos he] at h
    omega
  rw [stepCount, if_neg hne] at h ⊢
  by_cases hle : q ≤ pos
  · rw [show pos + lines - q = (pos - q) + lines by omega, Nat.add_mod_right, Nat.mod_eq_of_lt (by omega)]
    omega
  · rw [Nat.mod_eq_of_lt (by omega)] at h
    omega

/-- The record of a stepped passing that completes no lap (R84, R90, R96, R98). -/
theorem State.steppedRecord_within {k t : Nat} (h : q + k < s.lineCount) (hpos : pos ≠ 0) :
    s.steppedRecord r q k pos t = { r with
      sectors := spanned r.sectors q (q + k) (s.spannedEntry r q k t), delta := r.runningDelta pos t,
      notices := if deltaCrosses s.deltaDirection r.previousDelta (r.runningDelta pos t) then
        addNotice r.notices .deltaCross else r.notices,
      lastPos := some pos, lastTime := some t, latest := some t } := by
  have hdone : completes s.lineCount q k = false := by simp [completes, h]
  unfold State.steppedRecord
  simp only [hdone, paint_eq_spanned, Nat.min_eq_left (Nat.le_of_lt h), hpos]
  rfl

theorem State.finishIfChequered_open (v : State) (slot : Nat) (at' : Option Nat) :
    v.finishIfChequered slot false at' = v := if_neg fun h => Bool.false_ne_true h.1

end

theorem hasNotice_placed (m : Mask 7) {a b : Option Nat} (c : Notice) :
    hasNotice (if a = b then m else addNotice m .position) c =
      (hasNotice m c || (decide (c = .position) && decide (a ≠ b))) := by
  by_cases h : a = b <;> simp [h, hasNotice_addNotice, eq_comm]

/-- A record that differs from another in its place, its notices and its gap differs in these as it has them. -/
theorem Record.eq_of_placed {x y : Record} {a : Option Nat} {m : Mask 7} {g : Option Gap}
    (h : y = { x with position := a, notices := m, gap := g }) :
    y = { x with position := y.position, notices := y.notices, gap := y.gap } := by
  rw [h]

/-- Settles O38. -/
theorem sectorPassing : Obligations.SectorPassing := by
  intro s l code slot p r pos q h hecho hsoon n c hwithin
  obtain ⟨hof, -, -, hpos, hrun, hlast, hq, hsized⟩ := id h
  obtain ⟨hsteps, hne⟩ := stepCount_within hq hpos hwithin
  have hdone : completes s.lineCount q n = false := by simp [completes, n, hwithin]
  let x := s.steppedRecord (r.seen l p) q n pos p.time
  have hx : x = _ := State.steppedRecord_within (r := r.seen l p) (t := p.time) hwithin hne
  obtain ⟨hident, -, hposition, hgap⟩ := s.steppedRecord_place (r.seen l p) q n pos p.time
  have hexec : exec (.closeExpiry l code) s = .next (closeEvent s (s.crossed l code slot x p.time)) := by
    rw [exec_closeExpiry_stepped h hecho hsoon, hdone, State.finishIfChequered_open]
    rfl
  have hstate : stateInOrder x.state = true := by
    rw [(s.steppedRecord_standing (r.seen l p) q n pos p.time).1, show (r.seen l p).state = .running from hrun]
    rfl
  have hstarted : x.started = r.started := by rw [hx]; rfl
  have hindex : r.started = true → x.crossingIndex s.lineCount = c := fun hs => by
    rw [Record.crossingIndex_eq (hstarted.trans hs) (by rw [hx]) s.lineCount, hx]
    rfl
  obtain ⟨hscored, hsession, ⟨y, hy, -, heq⟩, hkeeps, htakes⟩ := closeEvent_crossing (x := x) hof hident hposition hgap hstate
  have hdelta : y.delta = r.runningDelta pos p.time := by rw [heq, hx]; rfl
  have hnotices : y.notices = if y.position = r.position then x.notices else addNotice x.notices .position :=
    (congrArg Record.notices heq :).trans (by rw [hposition]; rfl)
  have hygap : y.gap = if r.started then some (s.order.outcome s.lineCount c p.time).gap else r.gap := by
    rw [congrArg Record.gap heq, hstarted]
    split
    · rw [hindex ‹_›]
    · exact hgap
  refine ⟨_, y, s.spannedEntry r q n p.time, hexec, hscored, hsession, hy, s.spannedEntry_spans r q n p.time, ?_,
    fun u b hu hb hlen hall => ?_, fun habsent => ?_, fun m => ⟨?_, ?_, ?_⟩⟩
  · rw [← hygap]
    refine (Record.eq_of_placed heq).trans ?_
    rw [hdelta, hx]
    rfl
  · rw [hdelta, Record.runningDelta_formed hu hb (by omega) hall]
  · rw [hdelta, Record.runningDelta_none habsent]
  · have hcrosses : deltaCrosses s.deltaDirection (r.seen l p).previousDelta ((r.seen l p).runningDelta pos p.time) =
        (decide (q ≠ 0) && r.lastTime.isSome &&
          r.delta.any fun a => y.delta.any fun b => signChange s.deltaDirection a b) := by
      rw [deltaCrosses_eq, Record.previousDelta_any (r.seen l p) hlast, hdelta]
      rfl
    rw [hnotices, hasNotice_placed, hx]
    dsimp only
    rw [hasNotice_addIf, hcrosses]
    cases m <;> simp [Record.seen]
  · exact fun hno => hkeeps (hstarted.trans hno)
  · intro hs
    rw [← hindex hs]
    exact htakes (hstarted.trans hs)

end Sys2Proof.Machine
end

section
/-! Completions, the chequer they meet or bring, and the records they finish (R99, R100, R140 to R142). -/

namespace Sys2Proof.Machine

/-! ## The first of the order (R116, R117) -/

theorem placeOf_eq_one_iff (slot : Nat) (list : List Nat) : placeOf list slot = some 1 ↔ list.head? = some slot := by
  have hfrom : ∀ (xs : List Nat) (i k : Nat), placeFrom i slot xs = some k → i ≤ k := by
    intro xs
    induction xs with
    | nil => exact fun i k h => nomatch h
    | cons x xs ih =>
      intro i k h
      rw [placeFrom] at h
      split at h
      · exact Nat.le_of_eq (Option.some.inj h)
      · exact Nat.le_of_succ_le (ih (i + 1) k h)
  cases list with
  | nil => exact iff_of_false (fun h => nomatch h) (fun h => nomatch h)
  | cons x xs =>
    by_cases hx : x = slot
    · simp [placeOf, placeFrom, hx]
    · simp only [placeOf, placeFrom, List.head?_cons, Option.some.injEq, hx, iff_false]
      exact fun h => absurd (hfrom xs 2 1 h) (by omega)

theorem aheadInRace_asymm {a b : Record} {n m : Nat} (h : aheadInRace a n b m) : ¬ aheadInRace b m a n := by
  unfold aheadInRace at *
  omega

/-- The key by which R117 places a record. -/
def Record.SameRaceKey (a b : Record) : Prop := a.laps = b.laps ∧ a.round = b.round ∧ a.raceTime = b.raceTime

theorem Record.SameRaceKey.ahead_iff {a b o : Record} (h : a.SameRaceKey b) (n m : Nat) :
    aheadInRace a n o m ↔ aheadInRace b n o m := by
  obtain ⟨hlaps, hround, htime⟩ := h
  unfold aheadInRace
  rw [hlaps, hround, htime]

theorem OnlyPlaced.sameRaceKey {r x : Record} (h : OnlyPlaced r x) : x.SameRaceKey r := by
  rw [h.1]
  exact ⟨rfl, rfl, rfl⟩

theorem Record.SameRaceKey.ahead_of {a b o : Record} (h : a.SameRaceKey b) (n m : Nat) :
    aheadInRace o m a n ↔ aheadInRace o m b n := by
  obtain ⟨hlaps, hround, htime⟩ := h
  unfold aheadInRace
  rw [hlaps, hround, htime]

/-! ## A completion handed on (R140) -/

/-- A part at the hand-on of a completion: the list agrees with the keys, the session is as the passing found it, no other
record changed but in its place, and the record that completed is still running, under the key of `r`. -/
structure HandedOn (s z : State) (slot : Nat) (r : Record) : Prop where
  session : z.session = s.session
  now : z.now = s.now
  wf : z.table.records.wf
  agrees : z.orderAgrees
  others : OthersOnlyPlaced s z slot
  record : ∃ y, z.record? slot = some y ∧ (y.state = .running ∨ y.state = .pit) ∧ y.SameRaceKey r

section
variable {s z : State} {slot : Nat} {r : Record}

theorem OthersOnlyPlaced.at {u v : State} (h : OthersOnlyPlaced u v slot) {n : Nat} (hn : n ≠ slot) {a : Record}
    (ha : u.record? n = some a) : ∃ b, v.record? n = some b ∧ OnlyPlaced a b := by
  have hslot := h n hn
  rw [ha] at hslot
  cases hb : v.record? n with
  | none => simp [hb] at hslot
  | some b => exact ⟨b, rfl, by simpa only [hb] using hslot⟩

theorem OthersOnlyPlaced.from {u v : State} (h : OthersOnlyPlaced u v slot) {n : Nat} (hn : n ≠ slot) {b : Record}
    (hb : v.record? n = some b) : ∃ a, u.record? n = some a ∧ OnlyPlaced a b := by
  have hslot := h n hn
  rw [hb] at hslot
  cases ha : u.record? n with
  | none => simp [ha] at hslot
  | some a => exact ⟨a, rfl, by simpa only [ha] using hslot⟩

/-- The record that completed has order position 1 in a race exactly when it leads (R116, R117). -/
theorem HandedOn.leads_iff (h : HandedOn s z slot r) (hrace : z.keyType = .race) {y : Record}
    (hy : z.record? slot = some y) : y.position = some 1 ↔ Leads s slot r := by
  obtain ⟨x, hx, hstate, hkey⟩ := h.record
  obtain rfl : x = y := Option.some.inj (hx.symm.trans hy)
  obtain ⟨hnodup, hmem, hsorted⟩ := orderSorted z h.wf
  have hlist : z.order.list = orderOf z.keyType z.table.records := h.agrees.1
  have hplace : x.position = placeOf z.order.list slot := (h.agrees.2 (slot, x) (KeyMap.find_mem hy)).1
  rw [hplace, placeOf_eq_one_iff, hlist]
  have hin : slot ∈ orderOf z.keyType z.table.records := (hmem slot).2 ⟨x, hy, by tauto⟩
  have hahead : ∀ {n m : Nat} {a b : Record}, z.record? n = some a → z.record? m = some b →
      (∃ a b, z.record? n = some a ∧ z.record? m = some b ∧ aheadUnder z.keyType a n b m) → aheadInRace a n b m := by
    rintro n m a b ha hb ⟨a', b', ha', hb', hab⟩
    rw [Option.some.inj (ha.symm.trans ha'), Option.some.inj (hb.symm.trans hb')]
    rw [hrace] at hab
    exact hab
  cases hall : orderOf z.keyType z.table.records with
  | nil => rw [hall] at hin; exact absurd hin List.not_mem_nil
  | cons m rest =>
    rw [hall] at hnodup hmem hsorted hin
    obtain ⟨hfirst, -⟩ := List.pairwise_cons.1 hsorted
    rw [List.head?_cons, Option.some.injEq]
    constructor
    · rintro rfl n o hn ho hstate
      obtain ⟨b, hb, hplaced⟩ := h.others.at hn ho
      have hmemn : n ∈ m :: rest := (hmem n).2 ⟨b, hb, by rw [hplaced.state]; exact hstate⟩
      have hlead := hahead hy hb (hfirst n (List.mem_of_ne_of_mem hn hmemn))
      rwa [hkey.ahead_iff, hplaced.sameRaceKey.ahead_of] at hlead
    · intro hleads
      by_contra hne
      obtain ⟨b, hb, hb3⟩ := (hmem m).1 List.mem_cons_self
      obtain ⟨a, ha, hplaced⟩ := h.others.from hne hb
      have hlead := hahead hb hy (hfirst slot (List.mem_of_ne_of_mem (Ne.symm hne) hin))
      rw [hkey.ahead_of, hplaced.sameRaceKey.ahead_iff] at hlead
      exact aheadInRace_asymm hlead (hleads m a hne ha (by rw [← hplaced.state]; exact hb3))

theorem State.keyType_race_iff (s : State) : s.keyType = .race ↔ ∀ x ∈ s.session.setup, x.type = .race := by
  unfold State.keyType
  cases s.session.setup <;> simp

theorem State.lapLimitReached_iff (s : State) (x : Record) :
    s.lapLimitReached x = true ↔ ∃ c ∈ s.session.setup, c.lapLimit ≠ 0 ∧ c.lapLimit ≤ x.laps := by
  unfold State.lapLimitReached State.lapLimit
  cases s.session.setup with
  | none => simp
  | some c => by_cases hc : c.lapLimit = 0 <;> simp [hc]

/-- With a record still running the chequer writes the session controller alone (R141). -/
theorem State.enterChequered_onTrack {y : Record} (hy : z.record? slot = some y)
    (hstate : y.state = .running ∨ y.state = .pit) (cause : ChequerCause) :
    z.enterChequered cause (some slot) = z.setSession (z.session.chequer z.now cause (some slot)) := by
  rw [State.enterChequered_fieldIn]
  exact State.fieldIn_of_onTrack (r := y) hy hstate

/-- A completion meets or brings the chequer exactly as R140 has it, and writes the session controller alone. -/
theorem HandedOn.completion (h : HandedOn s z slot r)
    (hphase : s.session.phase = .green ∨ s.session.phase = .caution ∨ s.session.phase = .chequered) :
    (∀ c, s.chequeredBy slot r c →
      z.completion slot s.session.phase = z.setSession c ∧ c.phase = .chequered ∧ c.setup = z.session.setup ∧
        c.number = z.session.number) ∧
    ((∀ c, ¬ s.chequeredBy slot r c) →
      z.completion slot s.session.phase = z ∧ s.session.phase ≠ .chequered) := by
  obtain ⟨y, hy, hstate, hkey⟩ := h.record
  by_cases hcheq : s.session.phase = .chequered
  case pos =>
    have hstays : z.completion slot s.session.phase = z := if_neg fun hc => by simp [hcheq] at hc
    refine ⟨fun c hc => ?_, fun hno => absurd (.inl ⟨hcheq, rfl⟩) (hno s.session)⟩
    have hsame : c = z.session := by
      rw [h.session]
      rcases hc with ⟨-, hc⟩ | ⟨hne, -⟩ | ⟨hne, -⟩
      · exact hc
      · exact absurd hcheq hne
      · exact absurd hcheq hne
    rw [hsame]
    exact ⟨hstays, h.session ▸ hcheq, rfl, rfl⟩
  case neg =>
    have hrace : z.keyType = .race ↔ ∀ x ∈ s.session.setup, x.type = .race := by
      rw [z.keyType_race_iff, h.session]
    have hlimit : z.lapLimitReached y = true ↔ ∃ x ∈ s.session.setup, x.lapLimit ≠ 0 ∧ x.lapLimit ≤ r.laps := by
      rw [z.lapLimitReached_iff, h.session, hkey.1]
    have hfound : s.session.phase = .green ∨ s.session.phase = .caution := by tauto
    have hcompletion : z.completion slot s.session.phase =
        if z.keyType = .race then
          if z.lapLimitReached y then z.setSession (s.session.chequer s.now .lapLimit (some slot))
          else if z.leaderFinishes y then z.setSession (s.session.chequer s.now .leader (some slot)) else z
        else z := by
      unfold State.completion
      rw [State.enterChequered_onTrack hy hstate, State.enterChequered_onTrack hy hstate, hy, h.session, h.now]
      by_cases hr : z.keyType = .race
      · rw [if_pos ⟨hr, hfound⟩, if_pos hr]
      · rw [if_neg fun hc => hr hc.1, if_neg hr]
    have hleader : z.keyType = .race → (z.leaderFinishes y = true ↔
        s.session.finishPending = true ∧ Leads s slot r) := fun hr => by
      rw [State.leaderFinishes, Bool.and_eq_true, decide_eq_true_eq, h.leads_iff hr hy, h.session]
    rw [hcompletion]
    refine ⟨fun c hc => ?_, fun hno => ⟨?_, hcheq⟩⟩
    · rcases hc with ⟨hc, -⟩ | ⟨-, hr, hl, rfl⟩ | ⟨-, hr, hl, hpending, hleads, rfl⟩
      · exact absurd hc hcheq
      · rw [if_pos (hrace.2 hr), if_pos (hlimit.2 hl), h.session]
        exact ⟨rfl, rfl, rfl, rfl⟩
      · rw [if_pos (hrace.2 hr), if_neg fun hx => hl (hlimit.1 hx),
          if_pos ((hleader (hrace.2 hr)).2 ⟨hpending, hleads⟩), h.session]
        exact ⟨rfl, rfl, rfl, rfl⟩
    · split
      · rename_i hr
        rw [if_neg fun hl => hno _ (.inr (.inl ⟨hcheq, hrace.1 hr, hlimit.1 hl, rfl⟩)), if_neg fun hl => ?_]
        obtain ⟨hpending, hleads⟩ := (hleader hr).1 hl
        by_cases hlim : z.lapLimitReached y = true
        · exact hno _ (.inr (.inl ⟨hcheq, hrace.1 hr, hlimit.1 hlim, rfl⟩))
        · exact hno _ (.inr (.inr ⟨hcheq, hrace.1 hr, fun hx => hlim (hlimit.2 hx), hpending, hleads, rfl⟩))
      · rfl

end

end Sys2Proof.Machine
end

section
/-! Records moved more than once in an event, and the event that finishes a record (R74, R100, R119 to R121, R142). -/

namespace Sys2Proof.Machine

/-! ## Moves told of (R121) -/

/-- A race step that raises ORDER where it changed the list. -/
structure Moves (s u : State) : Prop where
  step : RaceStep s u
  listed : u.order.list ≠ s.order.list → hasCause u.report.causes .order = true

theorem Moves.trans {s u v : State} (h : Moves s u) (k : Moves u v) : Moves s v where
  step := h.step.trans k.step
  listed hne := by
    by_cases hu : v.order.list = u.order.list
    · exact k.step.caused _ (h.listed (hu ▸ hne))
    · exact k.listed hu

/-- A race step that leaves the list. -/
theorem Moves.of_list {s u : State} (h : RaceStep s u) (hlist : u.order.list = s.order.list) : Moves s u :=
  ⟨h, fun hne => absurd hlist hne⟩

theorem Moves.reorder (s : State) : Moves s s.reorder where
  step := .reorder s
  listed hne := by
    rw [State.reorder_list] at hne
    have hcauses : s.reorder.report.causes = addCause s.report.causes .order := by
      simp [State.reorder, State.updAll_eq, hne]
    rw [hcauses, hasCause_addCause]
    simp

section
variable {s b z u : State} {l : LinkNo} {code slot : Nat}

theorem Keyed.moves (h : Keyed b z slot) : Moves b z where
  step := h.step
  listed hne := by
    rw [h.told.causes]
    simp [hne]

/-- The latch and the moderation timer after the event that ends a race step (R163). -/
theorem RaceStep.latchFollows (h : RaceStep (s.gone l code) u) :
    LatchFollows s (closeEvent s u) ∧ KeepsTimer s (closeEvent s u) := by
  have k := h.trans (.reorder u)
  obtain ⟨causes, latch, he, -, hlatch⟩ := closeEvent_eq s u
  rw [he]
  refine ⟨?_, k.moderation, k.moderationExpiry⟩
  rw [LatchFollows, ← show u.reorder.report.latch = s.report.latch from k.latch]
  exact hlatch

/-- What an event whose records may have moved more than once tells the reporting unit. -/
theorem Moves.followsMoves (h : Moves (s.gone l code) u) : FollowsMoves s (closeEvent s u) := by
  have k := h.trans (.reorder u)
  obtain ⟨causes, latch, he, hcauses, -⟩ := closeEvent_eq s u
  obtain ⟨hlatch, htimer⟩ := h.step.latchFollows
  refine ⟨fun n hn => ?_, fun c => ?_, hlatch, htimer⟩
  · rw [he] at hn ⊢
    exact hn.elim (k.step.joined n) (k.step.noted n)
  · rw [he]
    have hother : ∀ d, d ≠ .order → hasCause u.reorder.report.causes d = hasCause s.report.causes d := k.step.onlyOrder
    cases c with
    | records =>
      rw [hcauses, if_pos rfl]
      change (!u.reorder.report.changed.isEmpty) = decide (u.reorder.report.changed ≠ [])
      cases u.reorder.report.changed <;> rfl
    | order =>
      intro hor
      have hcause : hasCause u.reorder.report.causes .order = true := hor.elim (k.step.caused _) k.listed
      simp [hcauses, hcause]
    | session => simp [hcauses, hother, State.sessionItems, State.countIn]
    | loops | time | unknown => simp [hcauses, hother]

end

/-! ## A record moved more than once (R119, R120) -/

theorem addNotice_position_again (m : Mask 7) : addNotice (addNotice m .position) .position = addNotice m .position := by
  revert m
  decide

theorem OnlyPlaced.onlyMoved {r x : Record} (h : OnlyPlaced r x) : OnlyMoved r x := by
  obtain ⟨heq, hgap, hnone⟩ := h
  have hnotices : x.notices = _ := (congrArg Record.notices heq :)
  refine ⟨heq.trans ?_, ?_, fun hne => ?_, hgap, hnone⟩
  · rw [hnotices]
  · rw [hnotices]
    dsimp only
    split
    · exact .inl rfl
    · exact .inr rfl
  · rw [hnotices]
    dsimp only
    rw [if_neg hne, hasNotice_addNotice]
    simp

theorem OnlyMoved.trans {r x y : Record} (h : OnlyMoved r x) (k : OnlyMoved x y)
    (hplace : y.position.isSome = true → x.position.isSome = true) : OnlyMoved r y := by
  obtain ⟨hxeq, hxnotices, hxpos, hxgap, -⟩ := h
  obtain ⟨hyeq, hynotices, hypos, hygap, hynone⟩ := k
  refine ⟨?_, ?_, fun hne => ?_, fun hsome => (hygap hsome).trans (hxgap (hplace hsome)), hynone⟩
  · rw [hyeq, hxeq]
  · rcases hxnotices with hx | hx <;> rcases hynotices with hy | hy <;> rw [hy, hx]
    · exact .inl rfl
    · exact .inr rfl
    · exact .inr rfl
    · exact .inr (addNotice_position_again _)
  · by_cases hy : y.position = x.position
    · have hx := hxpos (hy ▸ hne)
      rcases hynotices with he | he
      · rw [he, hx]
      · rw [he, hasNotice_addNotice, hx]
        simp
    · exact hypos hy

/-- Records placed once, and once more when the list is brought to the keys again. -/
theorem OthersOnlyMoved.of_reorder {s z v : State} {slot : Nat} (hz : Keyed s z slot) (hwf : v.table.records.wf)
    (hother : ∀ n, n ≠ slot → v.record? n = z.record? n) : OthersOnlyMoved s v.reorder slot := by
  intro n hn
  have hfirst := hz.others n hn
  have hagain := v.reorder_everyOnlyPlaced n
  rw [hother n hn] at hagain
  cases hb : z.record? n with
  | none =>
    have ha : s.record? n = none := by
      cases ha : s.record? n with
      | none => rfl
      | some a => simp [ha, hb] at hfirst
    have hd : v.reorder.record? n = none := by
      cases hd : v.reorder.record? n with
      | none => rfl
      | some d => simp [hb, hd] at hagain
    rw [ha, hd]
    trivial
  | some b =>
    obtain ⟨a, ha, hplaced⟩ := hz.others.from hn hb
    obtain ⟨d, hd, hmoved⟩ : ∃ d, v.reorder.record? n = some d ∧ OnlyPlaced b d := by
      cases hd : v.reorder.record? n with
      | none => simp [hb, hd] at hagain
      | some d => exact ⟨d, rfl, by simpa only [hb, hd] using hagain⟩
    rw [ha, hd]
    refine hplaced.onlyMoved.trans hmoved.onlyMoved fun hposition => ?_
    have hwfr : v.reorder.table.records.wf := by rw [KeyMap.wf, (RaceStep.reorder v).keys hwf]; exact hwf
    rwa [hz.agrees.position_isSome hz.told.wf hb, ← hmoved.state, ← v.reorder_agrees.position_isSome hwfr hd]

/-! ## The event that finishes a record (R100, R142) -/

section
variable {s z : State} {l : LinkNo} {code slot : Nat} {y y' : Record} {c : Session}

/-- The part once the session is `c`, the record finished as `y'` is brought to its place, and the field looked at. -/
def State.finishing (z : State) (c : Session) (slot : Nat) (y' : Record) : State :=
  (((z.setSession c).putRecord slot y').reorder).fieldIn

theorem closeEvent_finishing (hz : Keyed (s.gone l code) z slot) (hy : z.record? slot = some y)
    (hident : y'.identity = y.identity) (hfin : y'.state = .finished) (hsetup : c.setup = z.session.setup)
    (hnumber : c.number = z.session.number) (hphase : c.phase = .chequered) :
    let t := closeEvent s (z.finishing c slot y')
    (PassingGone s t l code ∧ KeepsIndex s t ∧ OthersOnlyMoved s t slot ∧ t.orderAgrees ∧ FollowsMoves s t ∧ EndsAs t c) ∧
    (t.order.lead = z.order.lead ∧ t.order.highest = z.order.highest) ∧
    ∃ x, t.record? slot = some x ∧ OnlyPlaced y' x ∧ x.position.isSome = true := by
  let v := (z.setSession c).putRecord slot y'
  have hput : RaceStep z v := (RaceStep.setSession z c hsetup hnumber).trans (.putRecord (s := z.setSession c) hy hident)
  have hvlist : v.order = z.order := State.putRecord_order ..
  have hwf : v.table.records.wf := by rw [KeyMap.wf, hput.keys hz.told.wf]; exact hz.told.wf
  have hwfr : v.reorder.table.records.wf := by rw [KeyMap.wf, (RaceStep.reorder v).keys hwf]; exact hwf
  have hsession : v.reorder.session = c := (State.reorder_session v).trans (State.putRecord_session ..)
  obtain ⟨htable, horder, -⟩ := v.reorder.fieldIn_same
  have hagrees : v.reorder.fieldIn.orderAgrees := by
    have hkey : v.reorder.fieldIn.keyType = v.reorder.keyType := by
      rw [State.keyType, State.fieldIn_setup, State.keyType]
    have hreorder := v.reorder_agrees
    unfold State.orderAgrees
    rw [hkey, htable, horder]
    exact hreorder
  have hmoves : Moves (s.gone l code) v.reorder.fieldIn :=
    ((hz.moves.trans (.of_list hput (congrArg OrderBlock.list hvlist))).trans (.reorder v)).trans
      (.of_list (.fieldIn v.reorder) (congrArg OrderBlock.list horder))
  obtain ⟨hrace, hrorder⟩ : (closeEvent s (z.finishing c slot y')).table = v.reorder.fieldIn.table ∧
      (closeEvent s (z.finishing c slot y')).order = v.reorder.fieldIn.order := closeEvent_race_of_agrees hagrees
  have hrec : ∀ n, (closeEvent s (z.finishing c slot y')).record? n = v.reorder.record? n := fun n =>
    congrArg (fun tb : CompetitorTable => tb.records.find n) (hrace.trans htable)
  have hfield : FieldIn (closeEvent s (z.finishing c slot y')) ↔ FieldIn v.reorder :=
    forall_congr' fun n => by rw [hrec]
  obtain ⟨hin, hout⟩ := State.fieldIn_session hwfr (hsession ▸ hphase)
  rw [hsession] at hin hout
  obtain ⟨x, hx, hplaced, hsome, -⟩ := State.reorder_record_in (x := y') hwf (State.putRecord_record_self ..)
    (by rw [hfin]; rfl)
  have hothers : OthersOnlyMoved s v.reorder slot := OthersOnlyMoved.of_reorder (s := s.gone l code) hz hwf fun n hn =>
    State.putRecord_record_ne (z.setSession c) y' hn
  have hclosed : (closeEvent s (z.finishing c slot y')).session = v.reorder.fieldIn.session := closeEvent_session s _
  refine ⟨⟨hmoves.step.passingGone, hmoves.step.keepsIndex, fun n hn => ?_, closeEvent_agrees s _, hmoves.followsMoves,
    fun h => hclosed.trans (hin (hfield.1 h)), fun h => hclosed.trans (hout fun hv => h (hfield.2 hv))⟩, ?_,
    x, (hrec slot).trans hx, hplaced, hsome⟩
  · rw [hrec]
    exact hothers n hn
  · have hlead : v.reorder.order.lead = v.order.lead ∧ v.reorder.order.highest = v.order.highest := by
      rw [v.reorder_order]
      exact ⟨rfl, rfl⟩
    rw [hrorder, horder, ← hvlist]
    exact hlead

end

end Sys2Proof.Machine
end

section
/-! Line passings that complete a lap (R87 to R95, R97 to R100, R140). -/

namespace Sys2Proof.Machine

/-! ## The record of a completed lap (R87, R88, R93 to R95) -/

/-- A lap completes: the delta is formed against the best lap as it stood, and the lap ends. -/
theorem Record.completeLap_ended (r : Record) (dir : DeltaDirection) (w : LapTime) (t : Nat)
    (h : r.bestSectors.length = r.sectors.length) :
    r.completeLap dir w t =
      (r.holdDelta dir r.previousDelta (completionDelta w r.bestLap)).ended (r.endingLap w) t := by
  let r2 := { r with laps := nextLaps r.laps, lastLap := some (r.endingLap w) }.holdDelta dir r.previousDelta
    (completionDelta w r.bestLap)
  obtain ⟨hbest, hnotices⟩ := r2.judgeLap_bestLap (r.endingLap w) t
  have hkeeps : (r2.judgeLap (r.endingLap w) t).bestSectors = r.bestSectors := by rw [Record.judgeLap_eq]; rfl
  have hsectors := (r2.judgeLap (r.endingLap w) t).judgeSectors_bestSectors (x := r.endingLap w) (by rw [hkeeps]; exact h)
  change { (r2.judgeLap (r.endingLap w) t).judgeSectors (r.endingLap w) with
    notices := addNotice ((r2.judgeLap (r.endingLap w) t).judgeSectors (r.endingLap w)).notices .lap, started := true } = _
  rw [Record.judgeSectors_eq, hsectors, hkeeps, Record.judgeLap_eq, hbest, hnotices]
  rfl

theorem hasLap_startFlags (caution out : Bool) (f : LapFlag) : hasLap (startFlags caution out) f = match f with
    | .caution => caution
    | .out => out
    | .suspended | .pit => false := by
  cases caution <;> cases out <;> cases f <;> decide

section
variable {s : State} {r : Record} {q k pos t : Nat}

/-- The lap that ends at a line passing (R84, R88). -/
def State.lineLap (s : State) (r : Record) (q k pos t : Nat) : LastLap :=
  { number := nextLaps r.laps, time := r.lineLapTime pos t, flags := r.lapFlags,
    sectors := spanned r.sectors q s.lineCount (s.spannedEntry r q k t) }

/-- The record with the lap of a line passing ended (R87, R97). -/
def State.lapEnded (s : State) (r : Record) (q k pos t : Nat) : Record :=
  ({ r with sectors := spanned r.sectors q s.lineCount (s.spannedEntry r q k t) }.holdDelta s.deltaDirection
    r.previousDelta (completionDelta (r.lineLapTime pos t) r.bestLap)).ended (s.lineLap r q k pos t) t

/-- The record once the next lap has started, unless the lap ended in the chequer (R89, R92, R100). -/
def State.lapFollowed (s : State) (r : Record) (q k pos t : Nat) (x : Record) : Record :=
  if s.session.phase = .chequered then x
  else x.startLap s.lineCount (if pos = 0 then some t else none) pos (s.spannedEntry r q k t)
    (startFlags (decide (s.session.phase = .caution)) (hasLap r.lapFlags .pit))

theorem State.lapFollowed_elapsed (x : Record) : (s.lapFollowed r q k pos t x).elapsed = x.elapsed := by
  unfold State.lapFollowed
  split <;> rfl

/-- The record of a stepped passing that completes a lap (R84 to R92). -/
theorem State.steppedRecord_lap (h : s.lineCount ≤ q + k) (hsized : r.bestSectors.length = r.sectors.length) :
    s.steppedRecord r q k pos t =
      { s.lapFollowed r q k pos t (s.lapEnded r q k pos t) with
        elapsed := if pos = 0 then some (elapsedIn s t) else r.elapsed,
        lastPos := some pos, latest := some t, lastTime := if pos = 0 then some t else none } := by
  have hdone : completes s.lineCount q k = true := decide_eq_true h
  have hlap : ({ r with sectors := spanned r.sectors q s.lineCount (s.spannedEntry r q k t) } : Record).completeLap
      s.deltaDirection (r.lineLapTime pos t) t = s.lapEnded r q k pos t :=
    Record.completeLap_ended _ _ _ t (hsized.trans (length_spanned ..).symm)
  have hunseen : (if (true && decide (pos ≠ 0)) = true then none else some t) = if pos = 0 then some t else none := by
    by_cases hpos : pos = 0 <;> simp [hpos]
  have hwrites : s.steppedRecord r q k pos t = Record.lineState
      { s.lapFollowed r q k pos t (s.lapEnded r q k pos t) with
        elapsed := if pos = 0 then some (s.elapsedAt t)
          else (s.lapFollowed r q k pos t (s.lapEnded r q k pos t)).elapsed } pos t (true && decide (pos ≠ 0)) := by
    rw [← hlap]
    unfold State.steppedRecord
    dsimp only
    rw [if_pos hdone, Nat.min_eq_right h, paint_eq_spanned, hdone]
    exact congrArg (fun x : Record => x.lineState pos t (true && decide (pos ≠ 0))) rfl
  rw [hwrites, State.lapFollowed_elapsed, ← hunseen]
  rfl

end

end Sys2Proof.Machine
end

section
/-! Laps completed on the line, and the laps that end in the chequer (R87 to R100, R140). -/

namespace Sys2Proof.Machine

section
variable {s : State} {l : LinkNo} {code slot : Nat} {p : OpenPassing} {r : Record} {pos q k : Nat}

/-- The record a completion on the line is judged by (R117, R140). -/
def Record.lapped (r : Record) (pos t : Nat) : Record :=
  { r with laps := r.oneMore, started := true, lastPos := some pos, latest := some t }

/-- The record of a completed lap, once it has crossed the line: its place and notice POSITION, and the crossing's gap. -/
structure Lapped (s z : State) (l : LinkNo) (code slot : Nat) (x : Record) (c t : Nat) : Prop where
  keyed : Keyed (s.gone l code) z slot
  record : ∃ y, z.record? slot = some y ∧ y.position.isSome = true ∧
    y = { x with
      position := y.position,
      notices := if y.position = x.position then x.notices else addNotice x.notices .position,
      gap := some (s.order.outcome s.lineCount c t).gap }
  lead : z.order.lead = (s.order.take s.lineCount c t).lead
  highest : z.order.highest = (s.order.take s.lineCount c t).highest

theorem State.crossed_lap (h : LinePassing s l code slot p r pos q) (hlap : s.lineCount ≤ q + k) :
    let x := s.steppedRecord (r.seen l p) q k pos p.time
    Lapped s (s.crossed l code slot x p.time) l code slot x (r.oneMore * s.lineCount + (pos + 1)) p.time := by
  obtain ⟨⟨hs, htable, -, -, hr, -⟩, -, -, -, hrun, -, -, hsized⟩ := h
  intro x
  obtain ⟨hident, -, hposition, hgap⟩ := s.steppedRecord_place (r.seen l p) q k pos p.time
  have hx := State.steppedRecord_lap (r := r.seen l p) (pos := pos) (t := p.time) hlap (hsized.2.1.trans hsized.1.symm)
  have hstate : stateInOrder x.state = true := by
    rw [(s.steppedRecord_standing (r.seen l p) q k pos p.time).1, show (r.seen l p).state = .running from hrun]
    rfl
  have hstarted : x.started = true ∧ x.laps = r.oneMore := by
    rw [show x = _ from hx]
    unfold State.lapFollowed
    split <;> exact ⟨rfl, rfl⟩
  have hindex : x.crossingIndex s.lineCount = r.oneMore * s.lineCount + (pos + 1) := by
    rw [Record.crossingIndex_eq hstarted.1 (by rw [show x = _ from hx]), hstarted.2]
  have hlines : (s.gone l code).lineCount = s.lineCount := (s.gone_course l code).lineCount
  obtain ⟨hkeyed, ⟨y, hy, hsome, heq⟩, -, htakes⟩ := State.crossing_written (b := s.gone l code) (x := x) hs htable.1 hr
    hident hposition hgap hstate p.time
  obtain ⟨hlead, hhighest⟩ := htakes hstarted.1
  rw [hlines, hindex] at hlead hhighest heq
  rw [if_pos hstarted.1] at heq
  exact ⟨hkeyed, ⟨y, hy, hsome, heq⟩, hlead, hhighest⟩

/-- The completion a line passing hands on (R99, R140). -/
theorem Lapped.handedOn {z : State} {c : Nat} (hrun : r.state = .running) (hlap : s.lineCount ≤ q + k)
    (hsized : r.sized s.lineCount)
    (h : Lapped s z l code slot (s.steppedRecord (r.seen l p) q k pos p.time) c p.time) :
    HandedOn s z slot (r.lapped pos p.time) := by
  obtain ⟨hkeyed, ⟨y, hy, -, heq⟩, -, -⟩ := h
  have hx := State.steppedRecord_lap (r := r.seen l p) (pos := pos) (t := p.time) hlap (hsized.2.1.trans hsized.1.symm)
  have hstate : y.state = .running := by
    rw [heq]
    exact (s.steppedRecord_standing (r.seen l p) q k pos p.time).1.trans hrun
  have hfields : y.laps = r.oneMore ∧ y.started = true ∧ y.lastPos = some pos ∧ y.latest = some p.time := by
    rw [heq, hx]
    unfold State.lapFollowed
    split <;> exact ⟨rfl, rfl, rfl, rfl⟩
  obtain ⟨hlaps, hstarted, hlast, hlatest⟩ := hfields
  refine ⟨hkeyed.session, congrArg TimeBase.now hkeyed.step.time, hkeyed.told.wf, hkeyed.agrees, hkeyed.others, y, hy,
    .inl hstate, hlaps, ?_, ?_⟩
  · rw [Record.round, hstarted, hlast]
    rfl
  · simp [Record.raceTime, hstate, hlatest, Record.lapped, hrun]

/-- The event of a line passing that completes a lap. -/
theorem exec_closeExpiry_lap (h : LinePassing s l code slot p r pos q) (hecho : ¬ isEcho s r q pos p.time)
    (hsoon : ¬ isTooSoon s r q pos p.time) (hlap : s.lineCount ≤ q + stepCount s.lineCount q pos) :
    let z := s.crossed l code slot (s.steppedRecord (r.seen l p) q (stepCount s.lineCount q pos) pos p.time) p.time
    exec (.closeExpiry l code) s = .next (closeEvent s
      ((z.completion slot s.session.phase).finishIfChequered slot true (if pos = 0 then some p.time else none))) := by
  intro z
  rw [exec_closeExpiry_stepped h hecho hsoon, show completes s.lineCount q _ = true from decide_eq_true hlap]
  rfl

end

theorem hasNotice_lapNotices (m : Mask 7) {a b : Option BestLap} (c : Notice) :
    hasNotice (addNotice (if a = b then m else addNotice m .newBest) .lap) c =
      (hasNotice m c || (decide (c = .newBest) && decide (a ≠ b)) || decide (c = .lap)) := by
  by_cases h : a = b <;> cases c <;> simp [h, hasNotice_addNotice]

/-- The notices of a lap that ends on the line (R87, R94, R98). -/
theorem State.lapEnded_notices (s : State) (r : Record) (q k pos t : Nat) :
    (s.lapEnded r q k pos t).notices =
      addNotice (if bestAfter r.bestLap (s.lineLap r q k pos t) t = r.bestLap then
          if deltaCrosses s.deltaDirection r.previousDelta (completionDelta (r.lineLapTime pos t) r.bestLap) then
            addNotice r.notices .deltaCross else r.notices
        else addNotice (if deltaCrosses s.deltaDirection r.previousDelta (completionDelta (r.lineLapTime pos t) r.bestLap)
          then addNotice r.notices .deltaCross else r.notices) .newBest) .lap := rfl

theorem State.finishIfChequered_of_ne {z : State} (h : z.session.phase ≠ .chequered) (slot : Nat) (done : Bool)
    (at' : Option Nat) : z.finishIfChequered slot done at' = z := if_neg fun hc => h hc.2

/-- Settles O39. -/
theorem lapCompletes : Obligations.LapCompletes := by
  intro s l code slot p r pos q h hecho hsoon n laps c hlap hno
  let x := s.steppedRecord (r.seen l p) q n pos p.time
  let z := s.crossed l code slot x p.time
  have hlapped : Lapped s z l code slot x c p.time := State.crossed_lap h hlap
  have hexec' := exec_closeExpiry_lap h hecho hsoon hlap
  obtain ⟨⟨hs, -, -, -, -, hphase⟩, -, -, hpos, hrun, hlast, hq, hsized⟩ := h
  obtain ⟨hstays, hcheq⟩ := ((hlapped.handedOn hrun hlap hsized).completion hphase).2 hno
  obtain ⟨hkeyed, ⟨y, hy, hsome, heq⟩, hlead, hhighest⟩ := hlapped
  obtain ⟨hscored, hsession, hrace, horder⟩ := hkeyed.scored hs
  have hexec : exec (.closeExpiry l code) s = .next (closeEvent s z) := by
    rw [← State.finishIfChequered_of_ne (z := z) (hkeyed.session ▸ hcheq) slot true (if pos = 0 then some p.time else none),
      ← hstays]
    exact hexec'
  have hx : x = { (s.lapEnded (r.seen l p) q n pos p.time).startLap s.lineCount (if pos = 0 then some p.time else none) pos
        (s.spannedEntry r q n p.time) (startFlags (decide (s.session.phase = .caution)) (hasLap r.lapFlags .pit)) with
      elapsed := if pos = 0 then some (elapsedIn s p.time) else r.elapsed,
      lastPos := some pos, latest := some p.time, lastTime := if pos = 0 then some p.time else none } := by
    refine (State.steppedRecord_lap (r := r.seen l p) hlap (hsized.2.1.trans hsized.1.symm)).trans ?_
    rw [State.lapFollowed, if_neg hcheq]
    rfl
  have hdelta : y.delta = completionDelta (r.lineLapTime pos p.time) r.bestLap := by rw [heq, hx]; rfl
  have hflags : y.lapFlags = startFlags (decide (s.session.phase = .caution)) (hasLap r.lapFlags .pit) := by
    rw [heq, hx]
    rfl
  have hbest : y.bestLap = bestAfter r.bestLap (s.lineLap (r.seen l p) q n pos p.time) p.time := by rw [heq, hx]; rfl
  have hnotices : y.notices = if y.position = r.position then x.notices else addNotice x.notices .position := by
    rw [heq, hx]
    rfl
  have hgap : y.gap = some (s.order.outcome s.lineCount c p.time).gap := by rw [heq]
  refine ⟨_, y, s.spannedEntry r q n p.time, s.lineLap (r.seen l p) q n pos p.time, hexec, hscored, hsession, ?_,
    s.spannedEntry_spans r q n p.time, rfl, ?_, fun f => ?_, fun m => ?_, ?_⟩
  · rw [State.record?, hrace]
    exact hy
  · rw [← hgap]
    refine (Record.eq_of_placed heq).trans ?_
    rw [hx, hflags, Record.startLap, paint_eq_spanned]
    rfl
  · rw [hflags]
    exact hasLap_startFlags _ _ f
  · have hcrosses : deltaCrosses s.deltaDirection (r.seen l p).previousDelta y.delta =
        (decide (q ≠ 0) && r.lastTime.isSome &&
          r.delta.any fun a => y.delta.any fun b => signChange s.deltaDirection a b) := by
      rw [deltaCrosses_eq, Record.previousDelta_any (r.seen l p) hlast]
      rfl
    have hxnotices : x.notices = _ := (congrArg Record.notices hx).trans (s.lapEnded_notices (r.seen l p) q n pos p.time)
    rw [hnotices, hasNotice_placed, ← hcrosses, hdelta, hbest, hxnotices, hasNotice_lapNotices, hasNotice_addIf]
    cases m <;> simp [Record.seen, Record.lineLapTime]
  · rw [horder]
    exact ⟨hlead, hhighest⟩

end Sys2Proof.Machine
end

section
/-! Records finished by a completion (R99, R100, R140 to R142). -/

namespace Sys2Proof.Machine

theorem addNotice_comm (m : Mask 7) (a b : Notice) : addNotice (addNotice m a) b = addNotice (addNotice m b) a := by
  unfold addNotice addBit
  rw [BitVec.or_assoc, BitVec.or_comm (oneOf 7 _), ← BitVec.or_assoc]

theorem OnlyMoved.finished {x y : Record} (h : OnlyMoved x y) (lines : Nat) (f : Option Nat) :
    OnlyMoved (x.finished lines f) (y.finished lines f) := by
  obtain ⟨heq, hnotices, hposition, hgap, hnone⟩ := h
  refine ⟨?_, ?_, fun hne => ?_, hgap, hnone⟩
  · rw [heq]
    rfl
  · rcases hnotices with he | he
    · exact .inl (congrArg (addNotice · .finished) he)
    · exact .inr ((congrArg (addNotice · .finished) he).trans (addNotice_comm ..))
  · change hasNotice (addNotice y.notices .finished) .position = true
    rw [hasNotice_addNotice, hposition hne]
    rfl

/-- A record finished that has its latest scored time. -/
theorem Record.finished_flagged {r : Record} {t : Nat} (h : r.latest = some t) (lines : Nat) (f : Option Nat) :
    r.finished lines f = r.flagged lines f t := by
  unfold Record.flagged
  rw [← h]
  rfl

theorem OthersOnlyPlaced.moved {s t : State} {slot : Nat} (h : OthersOnlyPlaced s t slot) : OthersOnlyMoved s t slot := by
  intro n hn
  have hslot := h n hn
  cases ha : s.record? n with
  | none =>
    cases hb : t.record? n with
    | none => trivial
    | some b => simp [ha, hb] at hslot
  | some a =>
    obtain ⟨b, hb, hplaced⟩ := h.at hn ha
    rw [hb]
    exact hplaced.onlyMoved

section
variable {s z : State} {l : LinkNo} {code slot : Nat} {x y y' : Record} {c : Session}

/-- The event that finishes a record in the CHEQUERED session `c` (R100, R142). -/
theorem closeEvent_finishes (hz : Keyed (s.gone l code) z slot) (hy : z.record? slot = some y)
    (hident : y'.identity = y.identity) (hfin : y'.state = .finished) (hmoved : OnlyMoved x y')
    (hsome : y'.position.isSome = true) (hsetup : c.setup = z.session.setup)
    (hnumber : c.number = z.session.number) (hphase : c.phase = .chequered) :
    Finishes s (closeEvent s (z.finishing c slot y')) l code slot x c ∧
    (closeEvent s (z.finishing c slot y')).order.lead = z.order.lead ∧
    (closeEvent s (z.finishing c slot y')).order.highest = z.order.highest := by
  obtain ⟨⟨hgone, hindex, hothers, hagrees, hfollows, hends⟩, hlead, w, hw, hplaced, -⟩ :=
    closeEvent_finishing hz hy hident hfin hsetup hnumber hphase
  exact ⟨⟨hgone, hindex, hothers, hagrees, hfollows, hends, w, hw, hmoved.trans hplaced.onlyMoved fun _ => hsome⟩, hlead⟩

theorem Keyed.lineCount (hz : Keyed (s.gone l code) z slot) : z.lineCount = s.lineCount :=
  (State.lineCount_of_links hz.step.links).trans (s.gone_course l code).lineCount

/-- Where a completion meets or brings the chequer, its record finishes (R99 step 3). -/
theorem Keyed.finishIfChequered (hz : Keyed (s.gone l code) z slot) (hy : z.record? slot = some y)
    (hphase : c.phase = .chequered) (f : Option Nat) :
    (z.setSession c).finishIfChequered slot true f = z.finishing c slot (y.finished s.lineCount f) := by
  rw [State.finishIfChequered, if_pos ⟨rfl, hphase⟩, State.finishRecord, State.updRecord_some (s := z.setSession c) hy,
    show (z.setSession c).lineCount = s.lineCount from hz.lineCount]
  rfl

end

/-- Settles O40: whatever session the chequer leaves, one event ends the passing. -/
theorem lapAtChequer : Obligations.LapAtChequer := by
  intro s l code slot p r pos q h hecho hsoon n laps cr finish chequers hlap
  let x := s.steppedRecord (r.seen l p) q n pos p.time
  let z := s.crossed l code slot x p.time
  have hlapped : Lapped s z l code slot x cr p.time := State.crossed_lap h hlap
  let t := closeEvent s ((z.completion slot s.session.phase).finishIfChequered slot true finish)
  have hexec : exec (.closeExpiry l code) s = .next t := exec_closeExpiry_lap h hecho hsoon hlap
  obtain ⟨⟨hs, -, -, -, -, hphase⟩, -, -, -, hrun, hlast, -, hsized⟩ := h
  obtain ⟨hbrings, hstays⟩ := (hlapped.handedOn hrun hlap hsized).completion hphase
  obtain ⟨hkeyed, ⟨y, hy, hsome, heq⟩, hlead, hhighest⟩ := hlapped
  let d := completionDelta (r.lineLapTime pos p.time) r.bestLap
  let x0 : Record := { x with gap := some (s.order.outcome s.lineCount cr p.time).gap }
  have hplaced : OnlyPlaced x0 y := ⟨heq.trans (by rw [congrArg Record.gap heq]), fun _ => (congrArg Record.gap heq :),
    fun hnone => by simp [hnone] at hsome⟩
  have hx : x = _ := State.steppedRecord_lap (r := r.seen l p) hlap (hsized.2.1.trans hsized.1.symm)
  have hcrosses : deltaCrosses s.deltaDirection (r.seen l p).previousDelta d =
      (decide (q ≠ 0) && r.lastTime.isSome &&
        r.delta.any fun a => d.any fun b => signChange s.deltaDirection a b) := by
    rw [deltaCrosses_eq, Record.previousDelta_any (r.seen l p) hlast]
    rfl
  have hflagged : x0.finished s.lineCount finish = Record.flagged
      (Record.ended { r.seen l p with
        delta := d, elapsed := if pos = 0 then some (elapsedIn s p.time) else r.elapsed,
        lastPos := some pos, lastTime := finish, gap := some (s.order.outcome s.lineCount cr p.time).gap,
        notices := if decide (q ≠ 0) && r.lastTime.isSome &&
            (r.delta.any fun a => d.any fun b => signChange s.deltaDirection a b) then
          addNotice r.notices .deltaCross else r.notices } (s.lineLap (r.seen l p) q n pos p.time) p.time)
      s.lineCount finish p.time := by
    have hlatest : x0.latest = some p.time := by
      change x.latest = _
      rw [hx]
    rw [Record.finished_flagged hlatest, ← hcrosses]
    change Record.flagged { x with gap := some (s.order.outcome s.lineCount cr p.time).gap } _ _ _ = _
    rw [hx]
    unfold State.lapFollowed
    split <;> rfl
  have hends : ∀ c, chequers c → Finishes s t l code slot _ c ∧ t.order.lead = z.order.lead ∧
      t.order.highest = z.order.highest := fun c hc => by
    obtain ⟨hcompletion, hchequered, hsetup, hnumber⟩ := hbrings c hc
    have hclose := closeEvent_finishes (y' := y.finished s.lineCount finish) hkeyed hy rfl rfl
      (hplaced.onlyMoved.finished s.lineCount finish) hsome hsetup hnumber hchequered
    rw [← hkeyed.finishIfChequered hy hchequered, ← hcompletion, hflagged] at hclose
    exact hclose
  by_cases hany : ∃ c, chequers c
  case pos =>
    obtain ⟨c, hc⟩ := hany
    obtain ⟨⟨hgone, hindex, hothers, hagrees, -, -, w, hw, hmoved⟩, hlead', hhighest'⟩ := hends c hc
    refine ⟨t, w, s.spannedEntry r q n p.time, s.lineLap (r.seen l p) q n pos p.time, d, hexec, hgone, hindex, hagrees,
      hothers, hw, ?_, s.spannedEntry_spans r q n p.time, rfl, rfl, hlead'.trans hlead, hhighest'.trans hhighest,
      fun c hc => (hends c hc).1, fun hno => absurd hc (hno c)⟩
    rw [hmoved.1]
    rfl
  case neg =>
    obtain ⟨hcompletion, hne⟩ := hstays fun c hc => hany ⟨c, hc⟩
    have hend : t = closeEvent s z := by
      change closeEvent s ((z.completion slot s.session.phase).finishIfChequered slot true finish) = _
      rw [hcompletion, State.finishIfChequered_of_ne (z := z) (hkeyed.session ▸ hne)]
    obtain ⟨hscored, hsession, hrace, horder⟩ := hkeyed.scored hs
    rw [← hend] at hscored hsession hrace horder
    obtain ⟨hgone, hindex, hothers, hagrees, -⟩ := hscored
    have hstanding : y.laps = laps ∧ y.state = .running := by
      rw [heq, hx]
      unfold State.lapFollowed
      split <;> exact ⟨rfl, hrun⟩
    refine ⟨t, y, s.spannedEntry r q n p.time, s.lineLap (r.seen l p) q n pos p.time, d, hexec, hgone, hindex, hagrees,
      hothers.moved, ?_, hstanding.1, s.spannedEntry_spans r q n p.time, rfl, rfl, ?_, ?_,
      fun c hc => absurd ⟨c, hc⟩ hany, fun _ => ⟨hstanding.2, hsession⟩⟩
    · rw [State.record?, hrace]
      exact hy
    · rw [horder, hlead]
    · rw [horder, hhighest]

end Sys2Proof.Machine
end

section
/-! The pit monitor: its positions, its records, and where its passings go (R70, R103 to R110). -/

namespace Sys2Proof.Machine

/-! ## Positions (R103) -/

theorem bypassCount_eq (s : State) {c : PitSettings} (hin : c.inAfter < s.lineCount) :
    bypassCount c s.lineCount = s.bypassed c := by
  have hint : ((c.outBefore : Int) - (c.inAfter : Int) - 1) % (s.lineCount : Int) =
      (((c.outBefore + s.lineCount - c.inAfter - 1) % s.lineCount : Nat) : Int) := by
    rw [Int.natCast_mod, Nat.cast_sub (by omega), Nat.cast_sub (by omega), Nat.cast_add,
      show (c.outBefore : Int) + s.lineCount - c.inAfter - (1 : Nat) = c.outBefore - c.inAfter - 1 + s.lineCount by
        push_cast; ring, Int.add_emod_right]
  rw [bypassCount, hint]
  exact Int.toNat_natCast _

theorem rejoinPos_eq (s : State) {c : PitSettings} (hlines : 1 ≤ s.lineCount) :
    rejoinPos c s.lineCount = s.rejoinAt c := by
  have hint : ((c.outBefore : Int) - 1) % (s.lineCount : Int) =
      (((c.outBefore + s.lineCount - 1) % s.lineCount : Nat) : Int) := by
    rw [Int.natCast_mod, Nat.cast_sub (by omega), Nat.cast_add,
      show (c.outBefore : Int) + s.lineCount - (1 : Nat) = c.outBefore - 1 + s.lineCount by push_cast; ring,
      Int.add_emod_right]
  rw [rejoinPos, hint]
  exact Int.toNat_natCast _

theorem bypassesLine_iff (c : PitSettings) : bypassesLine c = true ↔ skipsLine c := by
  simp [bypassesLine, skipsLine]

theorem bypassesPos_iff (s : State) {c : PitSettings} (hin : c.inAfter < s.lineCount) (pos : Nat) :
    bypassesPos c s.lineCount pos = true ↔
      ∃ i, i < s.bypassed c ∧ (c.inAfter + 1 + i) % s.lineCount = pos := by
  simp [bypassesPos, bypassCount_eq s hin]

/-! ## The record in the pit lane (R104 to R107) -/

theorem Record.outOfOrder_iff (r : Record) (t : Nat) : r.outOfOrder t = true ↔ ∃ u ∈ r.latest, t < u := by
  unfold Record.outOfOrder
  cases r.latest <;> simp

theorem State.markEnd_eq (s : State) {c : PitSettings} (hin : c.inAfter < s.lineCount) :
    markEnd c s.lineCount = min (c.inAfter + s.bypassed c + 1) s.lineCount := by
  rw [markEnd, bypassCount_eq s hin]

theorem Record.enterPit_entered (s : State) (r : Record) {c : PitSettings} (hin : c.inAfter < s.lineCount)
    (entry : Option Nat) (t : Nat) :
    { r.enterPit c s.lineCount entry with latest := some t } = r.entered s c entry t := by
  unfold Record.enterPit Record.markPit
  dsimp only
  rw [paint_eq_spanned, s.markEnd_eq hin]
  rfl

theorem State.startFlags_eq (s : State) (out : Bool) :
    startFlags (decide (s.session.phase = .caution)) out = s.newFlags out := by
  unfold State.newFlags startFlags
  by_cases h : s.session.phase = .caution <;> cases out <;> simp [h] <;> decide

theorem Record.holdDelta_none (r : Record) (dir : DeltaDirection) (d : Option Int) :
    r.holdDelta dir d none = { r with delta := none } := by
  have hno : deltaCrosses dir d none = false := by cases d <;> rfl
  rw [Record.holdDelta, hno]
  rfl

section
variable {s : State} {r : Record} {c : PitSettings} {t q : Nat}

/-- The loops left unseen before the entry, within the lap (R106). -/
theorem State.settledRecord_within (hq : q < c.inAfter) (hin : c.inAfter < s.lineCount) (hlast : r.lastPos = some q) :
    ∃ r', Settles s r c t r' ∧ s.settledRecord r c q t = { r' with latest := some t } := by
  have hu : stepsFrom s.lineCount q c.inAfter = c.inAfter - q := by
    rw [stepsFrom_eq (by omega), show c.inAfter + s.lineCount - q = (c.inAfter - q) + s.lineCount by omega,
      Nat.add_mod_right, Nat.mod_eq_of_lt (by omega)]
  have hdone : completes s.lineCount q (c.inAfter - q) = false := by
    simp only [completes, decide_eq_false_iff_not]
    omega
  refine ⟨{ r with
      sectors := spanned r.sectors q c.inAfter (s.unseenStatus q (c.inAfter - q) r.reference t),
      lastPos := some c.inAfter, lastTime := none, delta := none }, ?_, ?_⟩
  · unfold Settles
    rw [hlast]
    dsimp only
    rw [if_neg (by omega), if_pos hq]
    exact ⟨_, s.unseenStatus_spans r (by omega), rfl⟩
  · unfold State.settledRecord
    dsimp only
    rw [hu, hdone, if_neg Bool.false_ne_true, paint_eq_spanned, Nat.min_eq_left (by omega),
      show q + (c.inAfter - q) = c.inAfter by omega]

/-- The loops left unseen before the entry, the line among them: the lap completes and, unless it ended in the chequer, the
next one starts (R106). -/
theorem State.settledRecord_lap (hq : c.inAfter < q) (hlines : q < s.lineCount) (hlast : r.lastPos = some q)
    (hsized : r.bestSectors.length = r.sectors.length) :
    ∃ r', Settles s r c t r' ∧
      (s.session.phase ≠ .chequered → s.settledRecord r c q t = { r' with latest := some t }) ∧
      (s.settledRecord r c q t).SameRaceKey { r' with latest := some t } ∧
      ∀ f, (s.settledRecord r c q t).finished s.lineCount f = r'.flagged s.lineCount f t := by
  have hu : stepsFrom s.lineCount q c.inAfter = c.inAfter + s.lineCount - q := by
    rw [stepsFrom_eq hlines, Nat.mod_eq_of_lt (by omega)]
  have hdone : completes s.lineCount q (c.inAfter + s.lineCount - q) = true := by
    simp only [completes, decide_eq_true_eq]
    omega
  let e := s.unseenStatus q (c.inAfter + s.lineCount - q) r.reference t
  let lap : LastLap := { number := r.oneMore, time := .unseen, flags := r.lapFlags,
                         sectors := spanned r.sectors q s.lineCount e }
  have hlap : ({ r with sectors := spanned r.sectors q s.lineCount e } : Record).completeLap s.deltaDirection .unseen t =
      { r.ended lap t with sectors := spanned r.sectors q s.lineCount e, delta := none } := by
    refine (Record.completeLap_ended { r with sectors := spanned r.sectors q s.lineCount e } _ _ t
      (hsized.trans (length_spanned ..).symm)).trans ?_
    rw [show completionDelta .unseen r.bestLap = none by cases r.bestLap <;> rfl, Record.holdDelta_none]
    rfl
  have hwrites : s.settledRecord r c q t =
      { (if s.session.phase = .chequered then
            { r.ended lap t with sectors := spanned r.sectors q s.lineCount e, delta := none }
          else Record.startLap { r.ended lap t with sectors := spanned r.sectors q s.lineCount e, delta := none }
            s.lineCount none c.inAfter e (s.newFlags (hasLap r.lapFlags .pit))) with
        lastPos := some c.inAfter, lastTime := none, delta := none, latest := some t } := by
    rw [← hlap]
    unfold State.settledRecord
    dsimp only
    rw [hu, hdone, if_pos rfl, paint_eq_spanned, Nat.min_eq_right (by omega), State.startFlags_eq]
  refine ⟨{ r.ended lap t with
      lapStart := none, sectors := spanned (List.replicate s.lineCount .pending) 0 c.inAfter e,
      lapFlags := s.newFlags (hasLap r.lapFlags .pit), lastPos := some c.inAfter, lastTime := none, delta := none },
    ?_, fun hne => ?_, ?_, fun f => ?_⟩
  · unfold Settles
    rw [hlast]
    dsimp only
    rw [if_neg (by omega), if_neg (by omega)]
    exact ⟨e, s.unseenStatus_spans r (by omega), rfl⟩
  · rw [hwrites, if_neg hne, Record.startLap, paint_eq_spanned]
    rfl
  · rw [hwrites]
    split <;> exact ⟨rfl, rfl, rfl⟩
  · rw [Record.finished_flagged (t := t) (by rw [hwrites]), hwrites]
    split <;> rfl

end

end Sys2Proof.Machine
end

section
/-! Entries into the pit lane (R104 to R107, R120). -/

namespace Sys2Proof.Machine

/-! ## A record written in its place -/

section
variable {b z : State} {slot : Nat} {y y' : Record}

/-- A write that keeps the record's key and place leaves the list as it is. -/
theorem Keyed.putRecord (h : Keyed b z slot) (hy : z.record? slot = some y) (hident : y'.identity = y.identity)
    (hentry : ∀ ty, orderEntry ty (slot, y') = orderEntry ty (slot, y)) (hposition : y'.position = y.position)
    (hgap : y'.gap = y.gap) (hback : b.record? slot = some y' → y' = y) : Keyed b (z.putRecord slot y') slot where
  told := h.told.putRecord hy hback
  agrees := h.agrees.putRecord h.told.wf hy hentry hposition (.inl hgap)
  others := h.others.congr fun _ hn => State.putRecord_record_ne z y' hn
  session := (State.putRecord_session ..).trans h.session
  step := h.step.trans (.putRecord hy hident)

theorem State.reorder_keepsLead (u : State) : KeepsLead u u.reorder := by
  unfold KeepsLead
  rw [u.reorder_order]
  exact ⟨rfl, rfl⟩

theorem State.putRecord_keepsLead (u : State) (n : Nat) (x : Record) : KeepsLead u (u.putRecord n x) := by
  unfold KeepsLead
  rw [State.putRecord_order]
  exact ⟨rfl, rfl⟩

theorem State.putRecord_lineCount (u : State) (n : Nat) (x : Record) : (u.putRecord n x).lineCount = u.lineCount :=
  State.lineCount_of_links (by rcases u.putRecord_eq n x with ⟨h, -⟩ | h <;> rw [h]; rfl)

theorem State.notFinished_of {u : State} {x : Record} (hx : u.record? slot = some x) :
    u.notFinished slot = decide (x.state ≠ .finished) := by
  unfold State.notFinished
  rw [hx]

end

/-! ## The stop opened (R104, R107) -/

section
variable {s : State} {l : LinkNo} {code slot : Nat} {p : OpenPassing} {r w : Record} {c : PitSettings}
  {entry : Option Nat}

/-- A part in which the passing has been scored to the record `x`, in the list and without a crossing. -/
def State.Leaves (s u : State) (l : LinkNo) (code slot : Nat) (x : Record) : Prop :=
  Keyed (s.gone l code) u slot ∧ KeepsLead s u ∧ ∃ y, u.record? slot = some y ∧ OnlyPlaced x y

/-- A stop opened for a record that is written and keyed with it (R106). -/
theorem State.openStop_leaves (h : PassingOf s l code slot p r) (hpit : r.state ≠ .pit) (hin : c.inAfter < s.lineCount)
    (hident : w.identity = r.identity) (hposition : w.position = r.position) (t : Nat) :
    s.Leaves (((s.gone l code).putRecord slot w).openStop slot c entry t) l code slot (w.entered s c entry t) := by
  obtain ⟨hs, htable, -, -, hr, -⟩ := h
  have hopens : ((s.gone l code).putRecord slot w).openStop slot c entry t =
      ((s.gone l code).putRecord slot (w.entered s c entry t)).reorder := by
    have hlines : ((s.gone l code).putRecord slot w).lineCount = s.lineCount :=
      (State.putRecord_lineCount ..).trans (s.gone_course l code).lineCount
    have hbecomes := w.enterPit_entered s hin entry t
    rw [State.openStop, State.updRecord_putRecord fun hback => ?_, hlines]
    · exact congrArg (fun x => ((s.gone l code).putRecord slot x).reorder) hbecomes
    · have hsame := Option.some.inj (hr.symm.trans hback)
      exact absurd (congrArg Record.state hsame) hpit
  rw [hopens]
  obtain ⟨hkeyed, y, hy, hplaced, -, -⟩ := State.reorder_written (b := s.gone l code) (x := w.entered s c entry t) hs
    htable.1 hr hident hposition rfl
  exact ⟨hkeyed, ((s.gone l code).putRecord_keepsLead slot _).trans (State.reorder_keepsLead _), y, hy, hplaced⟩

/-- A record that has completed a lap in the pit lane, brought to its place (R99, R120). -/
theorem Keyed.of_written (h : PassingOf s l code slot p r) {x : Record} (hident : x.identity = r.identity)
    (hposition : x.position = r.position) (hin : stateInOrder x.state = true) :
    let z := ((s.gone l code).putRecord slot x).reorder
    Keyed (s.gone l code) z slot ∧ KeepsLead s z ∧
    ∃ y, z.record? slot = some y ∧ OnlyPlaced x y ∧ y.position.isSome = true ∧ y.gap = x.gap := by
  obtain ⟨hs, htable, -, -, hr, -⟩ := h
  obtain ⟨hkeyed, hrecord⟩ := State.reorder_written (b := s.gone l code) hs htable.1 hr hident hposition hin
  exact ⟨hkeyed, ((s.gone l code).putRecord_keepsLead slot _).trans (State.reorder_keepsLead _), hrecord⟩

/-- A completion of a record written in the pit lane, keyed as `r'` (R140). -/
theorem HandedOn.of_keyed {z : State} {x y r' : Record} (hkeyed : Keyed (s.gone l code) z slot)
    (hy : z.record? slot = some y) (hplaced : OnlyPlaced x y) (hstate : x.state = .running ∨ x.state = .pit)
    (hkey : x.SameRaceKey r') : HandedOn s z slot r' where
  session := hkeyed.session
  now := congrArg TimeBase.now hkeyed.step.time
  wf := hkeyed.told.wf
  agrees := hkeyed.agrees
  others := hkeyed.others
  record := by
    obtain ⟨hlaps, hround, htime⟩ := hplaced.sameRaceKey
    obtain ⟨hlaps', hround', htime'⟩ := hkey
    exact ⟨y, hy, by rwa [hplaced.state], hlaps.trans hlaps', hround.trans hround', htime.trans htime'⟩

/-- The event of a completion in the pit lane that finishes its record as `x` (R100, R106, R110). -/
theorem Keyed.finishesAs {z : State} {x y y' : Record} {e : Session} (hkeyed : Keyed (s.gone l code) z slot)
    (hlead : KeepsLead s z) (hy : z.record? slot = some y) (hident : y'.identity = y.identity)
    (hfin : y'.state = .finished) (hmoved : OnlyMoved x y') (hsome : y'.position.isSome = true)
    (he : e.phase = .chequered ∧ e.setup = z.session.setup ∧ e.number = z.session.number) :
    FinishesAs s (closeEvent s (z.finishing e slot y')) l code slot x e := by
  obtain ⟨hphase, hsetup, hnumber⟩ := he
  obtain ⟨hfinishes, hkeeps⟩ := closeEvent_finishes hkeyed hy hident hfin hmoved hsome hsetup hnumber hphase
  exact ⟨hfinishes, hlead.trans hkeeps⟩

theorem State.finishing_notFinished {z : State} {e : Session} {y' : Record} (hw : z.table.records.wf)
    (hfin : y'.state = .finished) : (z.finishing e slot y').notFinished slot = false := by
  have hput : ((z.setSession e).putRecord slot y').table.records.wf := by
    rcases (z.setSession e).putRecord_eq slot y' with ⟨h, -⟩ | h <;> rw [h]
    · exact hw
    · exact KeyMap.wf_put hw _ _
  obtain ⟨x, hx, hplaced, -⟩ := State.reorder_record_in (x := y') hput (State.putRecord_record_self ..) (by rw [hfin]; rfl)
  have hrec : (z.finishing e slot y').record? slot = some x := by
    obtain ⟨htable, -⟩ := (((z.setSession e).putRecord slot y').reorder).fieldIn_same
    rw [State.finishing, State.record?, htable]
    exact hx
  rw [State.notFinished_of hrec, hplaced.state, hfin]
  rfl

end

end Sys2Proof.Machine
end

section
/-! What a pit entry leaves, and the pit-in passings (R104 to R107). -/

namespace Sys2Proof.Machine

section
variable {s : State} {l : LinkNo} {code slot : Nat} {p : OpenPassing} {r r' : Record} {c : PitSettings}
  {entry : Option Nat} {t : Nat}

theorem SameCourse.settledRecord {v : State} (h : SameCourse s v) : v.settledRecord = s.settledRecord := by
  funext r c q t
  unfold State.settledRecord
  rw [h.lineCount, h.unseenStatus, h.deltaDirection, h.session]

/-- A settled record leaves its record's identity, its sighting and its place. -/
theorem State.settledRecord_place (s : State) (r : Record) (c : PitSettings) (q t : Nat) :
    (s.settledRecord r c q t).identity = r.identity ∧ (s.settledRecord r c q t).sighting = r.sighting ∧
    (s.settledRecord r c q t).position = r.position ∧ (s.settledRecord r c q t).gap = r.gap := by
  unfold State.settledRecord
  dsimp only
  split
  · rw [Record.completeLap_eq]
    split <;> exact ⟨rfl, rfl, rfl, rfl⟩
  · exact ⟨rfl, rfl, rfl, rfl⟩

theorem Settles.keeps (h : Settles s r c t r') :
    r'.identity = r.identity ∧ r'.position = r.position ∧ r'.state = r.state ∧ r'.sighting = r.sighting := by
  unfold Settles at h
  cases hlast : r.lastPos with
  | none =>
    rw [hlast] at h
    dsimp only at h
    rw [h]
    exact ⟨rfl, rfl, rfl, rfl⟩
  | some q =>
    rw [hlast] at h
    dsimp only at h
    split at h
    · rw [h]
      exact ⟨rfl, rfl, rfl, rfl⟩
    · split at h
      · obtain ⟨e, -, rfl⟩ := h
        exact ⟨rfl, rfl, rfl, rfl⟩
      · obtain ⟨e, -, rfl⟩ := h
        exact ⟨rfl, rfl, rfl, rfl⟩

/-- The part after a pit entry whose record is to be settled first (R106). -/
theorem State.pitEntry_settling (hr : s.record? slot = some r) {q : Nat} (hlast : r.lastPos = some q)
    (hq : q ≠ c.inAfter) :
    let u := ((s.gone l code).putRecord slot (s.settledRecord (r.seen l p) c q t)).pitCompletion slot s.session.phase
      (completes s.lineCount q (stepsFrom s.lineCount q c.inAfter)) none
    (s.seeing l code slot p r).pitEntry slot (r.seen l p) c s.session.phase entry t =
      if u.notFinished slot then u.openStop slot c entry t else u := by
  intro u
  have hcourse := State.seeing_course (l := l) (code := code) (p := p) hr
  unfold State.pitEntry
  rw [show (r.seen l p).lastPos = some q from hlast]
  dsimp only
  rw [if_neg hq, hcourse.settledRecord, hcourse.lineCount,
    State.seeing_putRecord (x := s.settledRecord (r.seen l p) c q t) hr (s.settledRecord_place ..).2.1]

/-- A pit entry before which no lap completes (R106). -/
theorem State.pitEntry_within (h : PassingOf s l code slot p r) (hin : c.inAfter < s.lineCount)
    (hrun : r.state = .running ∨ r.state = .enrolled) (hno : ∀ q ∈ r.lastPos, q ≤ c.inAfter) :
    ∃ r', Settles s (r.seen l p) c p.time r' ∧
      s.Leaves ((s.seeing l code slot p r).pitEntry slot (r.seen l p) c s.session.phase entry p.time) l code slot
        (r'.entered s c entry p.time) := by
  have hr : s.record? slot = some r := h.2.2.2.2.1
  have hpit : r.state ≠ .pit := by rcases hrun with hs | hs <;> rw [hs] <;> simp
  have hopen := State.openStop_leaves (w := r.seen l p) (c := c) (entry := entry) h hpit hin rfl rfl p.time
  cases hlast : r.lastPos with
  | none =>
    refine ⟨r.seen l p, ?_, ?_⟩
    · unfold Settles
      rw [show (r.seen l p).lastPos = none from hlast]
    · unfold State.pitEntry
      rw [show (r.seen l p).lastPos = none from hlast]
      exact hopen
  | some q =>
    by_cases hsame : q = c.inAfter
    · refine ⟨r.seen l p, ?_, ?_⟩
      · unfold Settles
        rw [show (r.seen l p).lastPos = some q from hlast]
        exact (if_pos hsame).mpr rfl
      · unfold State.pitEntry
        rw [show (r.seen l p).lastPos = some q from hlast]
        dsimp only
        rw [if_pos hsame]
        exact hopen
    · have hq : q < c.inAfter := Nat.lt_of_le_of_ne (hno q hlast) hsame
      obtain ⟨r', hsettles, hwrites⟩ :=
        State.settledRecord_within (r := r.seen l p) (t := p.time) hq hin hlast
      have hdone : completes s.lineCount q (stepsFrom s.lineCount q c.inAfter) = false := by
        rw [stepsFrom_eq (by omega), show c.inAfter + s.lineCount - q = (c.inAfter - q) + s.lineCount by omega,
          Nat.add_mod_right, Nat.mod_eq_of_lt (by omega)]
        simp only [completes, decide_eq_false_iff_not]
        omega
      obtain ⟨hident, hposition, -⟩ := hsettles.keeps
      have hfin : (((s.gone l code).putRecord slot (s.settledRecord (r.seen l p) c q p.time)).pitCompletion slot
          s.session.phase false none).notFinished slot = true := by
        refine (State.notFinished_of (State.putRecord_record_self ..)).trans (decide_eq_true ?_)
        rw [(s.settledRecord_standing (r.seen l p) c q p.time).1]
        rcases hrun with hs | hs <;> rw [show (r.seen l p).state = _ from hs] <;> simp
      refine ⟨r', hsettles, ?_⟩
      rw [State.pitEntry_settling hr hlast hsame, hdone, if_pos hfin, hwrites]
      exact State.openStop_leaves (w := { r' with latest := some p.time }) h hpit hin hident hposition p.time

theorem OnlyPlaced.entered {x y : Record} (h : OnlyPlaced x y) (s : State) (c : PitSettings) (entry : Option Nat) (t : Nat) :
    OnlyPlaced (x.entered s c entry t) (y.entered s c entry t) := by
  obtain ⟨heq, hgap, hnone⟩ := h
  exact ⟨congrArg (fun o : Record => o.entered s c entry t) heq, hgap, hnone⟩

/-- A running record keeps its key as it enters the pit lane at its latest scored time (R57, R117, R118). -/
theorem Record.entered_orderEntry {y : Record} (hrun : y.state = .running) (hlatest : y.latest = some t) (s : State)
    (c : PitSettings) (entry : Option Nat) (ty : SessionType) (slot : Nat) :
    orderEntry ty (slot, y.entered s c entry t) = orderEntry ty (slot, y) := by
  have hprogress : (y.entered s c entry t).progress = y.progress := rfl
  have htime : (y.entered s c entry t).keyTime = y.keyTime := by simp [Record.keyTime, Record.entered, hrun, hlatest]
  have hkey : (y.entered s c entry t).orderKey ty slot = y.orderKey ty slot := by
    cases ty with
    | race =>
      simp only [Record.orderKey, Record.raceKey, hprogress, htime]
      rfl
    | practice | qualifying => rfl
  unfold orderEntry
  dsimp only
  rw [hkey, hrun]
  rfl

/-- A pit entry before which a lap completes (R106, R140). -/
theorem State.pitEntry_lap (h : PassingOf s l code slot p r) (hin : c.inAfter < s.lineCount) (hrun : r.state = .running)
    (hsized : r.sized s.lineCount) {q : Nat} (hlast : r.lastPos = some q) (hq : c.inAfter < q) (hlines : q < s.lineCount) :
    ∃ r', Settles s (r.seen l p) c p.time r' ∧
      let chequers := s.chequeredBy slot { r' with latest := some p.time }
      let u := (s.seeing l code slot p r).pitEntry slot (r.seen l p) c s.session.phase entry p.time
      (∀ e, chequers e → FinishesAs s (closeEvent s u) l code slot (r'.flagged s.lineCount none p.time) e ∧
        u.notFinished slot = false) ∧
      ((∀ e, ¬ chequers e) → s.Leaves u l code slot (r'.entered s c entry p.time)) := by
  have hr : s.record? slot = some r := h.2.2.2.2.1
  have hphase := h.2.2.2.2.2
  let x := s.settledRecord (r.seen l p) c q p.time
  obtain ⟨r', hsettles, hopen, hkey, hflagged⟩ := State.settledRecord_lap (r := r.seen l p) (t := p.time) hq hlines hlast
    (hsized.2.1.trans hsized.1.symm)
  obtain ⟨hident, -, hposition, -⟩ := s.settledRecord_place (r.seen l p) c q p.time
  obtain ⟨hxstate, -, -, hxlatest⟩ := s.settledRecord_standing (r.seen l p) c q p.time
  have hxrun : x.state = .running := hxstate.trans hrun
  have hdone : completes s.lineCount q (stepsFrom s.lineCount q c.inAfter) = true := by
    rw [stepsFrom_eq hlines, Nat.mod_eq_of_lt (by omega)]
    simp only [completes, decide_eq_true_eq]
    omega
  let z := ((s.gone l code).putRecord slot x).reorder
  obtain ⟨hkeyed, hlead, y, hy, hplaced, hsome, -⟩ := Keyed.of_written h hident hposition (x := x) (by rw [hxrun]; rfl)
  have hystate : y.state = .running := hplaced.state.trans hxrun
  obtain ⟨hbrings, hstays⟩ := (HandedOn.of_keyed hkeyed hy hplaced (.inl hxrun) hkey).completion hphase
  have hsettling := State.pitEntry_settling (l := l) (code := code) (p := p) (entry := entry) (t := p.time) (c := c) hr hlast
    (Nat.ne_of_gt hq)
  have hfound : (s.gone l code).session.phase = s.session.phase := rfl
  rw [hdone] at hsettling
  have hcompletes : ((s.gone l code).putRecord slot x).pitCompletion slot s.session.phase true none =
      (z.completion slot s.session.phase).finishIfChequered slot true none := rfl
  refine ⟨r', hsettles, fun e he => ?_, fun hno => ?_⟩
  · obtain ⟨hcompletion, he⟩ := hbrings e he
    have hends : ((s.gone l code).putRecord slot x).pitCompletion slot s.session.phase true none =
        z.finishing e slot (y.finished s.lineCount none) := by
      rw [hcompletes, hcompletion, hkeyed.finishIfChequered hy he.1]
    have hover := State.finishing_notFinished (slot := slot) (e := e) (y' := y.finished s.lineCount none) hkeyed.told.wf rfl
    rw [hsettling, hends, hover]
    refine ⟨?_, hover⟩
    rw [← hflagged]
    exact hkeyed.finishesAs hlead hy rfl rfl (hplaced.onlyMoved.finished s.lineCount none) hsome he
  · obtain ⟨hcompletion, hne⟩ := hstays hno
    have hgoes : ((s.gone l code).putRecord slot x).pitCompletion slot s.session.phase true none = z := by
      rw [hcompletes, hcompletion, State.finishIfChequered_of_ne (z := z) (hkeyed.session ▸ hne)]
    have hrunning : z.notFinished slot = true := by
      rw [State.notFinished_of hy, hystate]
      rfl
    have hylatest : y.latest = some p.time := (congrArg Record.latest hplaced.1 :).trans hxlatest
    have hput : Keyed (s.gone l code) (z.putRecord slot (y.entered s c entry p.time)) slot :=
      hkeyed.putRecord hy rfl (fun ty => Record.entered_orderEntry hystate hylatest s c entry ty slot) rfl rfl fun hback => by
        have hsame : r = y.entered s c entry p.time := Option.some.inj (hr.symm.trans hback)
        exact absurd (hrun.symm.trans (congrArg Record.state hsame)) (by simp [Record.entered])
    have hopens : z.openStop slot c entry p.time = z.putRecord slot (y.entered s c entry p.time) := by
      rw [State.openStop, State.updRecord_some hy, hkeyed.lineCount, y.enterPit_entered s hin]
      exact State.reorder_of_agrees hput.agrees
    rw [hsettling, hgoes, if_pos hrunning, hopens]
    have hbecomes : x.entered s c entry p.time = r'.entered s c entry p.time :=
      (congrArg (fun o : Record => o.entered s c entry p.time) (hopen hne) :)
    exact ⟨hput, hlead.trans (z.putRecord_keepsLead slot _), _, State.putRecord_record_self ..,
      hbecomes ▸ hplaced.entered s c entry p.time⟩

/-- What a pit entry leaves (R104, R106, R107). -/
theorem State.pitEntry_outcome (h : PassingOf s l code slot p r) (hin : c.inAfter < s.lineCount)
    (hrun : r.state = .running ∨ r.state = .enrolled ∧ r.lastPos = none) (hsized : r.sized s.lineCount)
    (hlines : ∀ q ∈ r.lastPos, q < s.lineCount) (entry : Option Nat) :
    ∃ r', Settles s (r.seen l p) c p.time r' ∧
      let laps := ∃ q ∈ r.lastPos, c.inAfter < q
      let chequers := s.chequeredBy slot { r' with latest := some p.time }
      let u := (s.seeing l code slot p r).pitEntry slot (r.seen l p) c s.session.phase entry p.time
      (∀ e, laps → chequers e → FinishesAs s (closeEvent s u) l code slot (r'.flagged s.lineCount none p.time) e ∧
        u.notFinished slot = false) ∧
      ((laps → ∀ e, ¬ chequers e) → s.Leaves u l code slot (r'.entered s c entry p.time)) := by
  by_cases hlaps : ∃ q ∈ r.lastPos, c.inAfter < q
  · obtain ⟨q, hlast, hq⟩ := hlaps
    have hrunning : r.state = .running := hrun.resolve_right fun hx => by simp [hx.2] at hlast
    obtain ⟨r', hsettles, hfinishes, hleaves⟩ :=
      State.pitEntry_lap (entry := entry) h hin hrunning hsized hlast hq (hlines q hlast)
    exact ⟨r', hsettles, fun e _ he => hfinishes e he, fun hno => hleaves (hno ⟨q, hlast, hq⟩)⟩
  · obtain ⟨r', hsettles, hleaves⟩ := State.pitEntry_within (entry := entry) h hin (hrun.imp_right And.left)
      fun q hq => Nat.le_of_not_lt fun hlt => hlaps ⟨q, hq, hlt⟩
    exact ⟨r', hsettles, fun e hx => absurd hx hlaps, fun _ => hleaves⟩

end

end Sys2Proof.Machine
end

section
/-! Where the passings of the pit monitor go (R70, R105). -/

namespace Sys2Proof.Machine

section
variable {s : State} {l : LinkNo} {code slot : Nat} {p : OpenPassing} {r x : Record} {c : PitSettings} {pos : Nat}

theorem State.dispatch_pitIn {v : State} (hphase : scoringPhase v.session.phase = true) (hx : v.record? slot = some x)
    (hrole : (v.link l).role = .pitIn) (hpit : v.circuit.pit = some c) (t : Nat) :
    v.dispatch slot l t = v.takePitIn slot x c l t := by
  unfold State.dispatch
  rw [if_pos hphase, hx]
  dsimp only
  rw [hrole]
  dsimp only
  rw [State.withPit, hpit]

theorem State.dispatch_pitOut {v : State} (hphase : scoringPhase v.session.phase = true) (hx : v.record? slot = some x)
    (hrole : (v.link l).role = .pitOut) (hpit : v.circuit.pit = some c) (t : Nat) :
    v.dispatch slot l t = v.takePitOut slot x c l t := by
  unfold State.dispatch
  rw [if_pos hphase, hx]
  dsimp only
  rw [hrole]
  dsimp only
  rw [State.withPit, hpit]

theorem State.dispatchLine_pit {v : State} (hstate : x.state = .pit) (hpit : v.circuit.pit = some c) (t : Nat) :
    v.dispatchLine slot x l pos t = v.takePitLine slot x c l pos t := by
  unfold State.dispatchLine
  rw [hstate]
  dsimp only
  rw [State.withPit, hpit]

/-- The event of a passing that resolves to a record, in a state that scores passings. -/
theorem exec_closeExpiry_passing (h : PassingOf s l code slot p r) :
    exec (.closeExpiry l code) s = .next (closeEvent s ((s.seeing l code slot p r).dispatch slot l p.time)) ∧
    scoringPhase (s.seeing l code slot p r).session.phase = true := by
  obtain ⟨-, -, hdue, hcode, hr, hphase⟩ := h
  have hroll : s.session.phase ≠ .rolling := by rcases hphase with h | h | h <;> rw [h] <;> simp
  refine ⟨exec_closeExpiry_seeing hdue hroll hcode hr, ?_⟩
  rw [State.seeing_session]
  exact (scoringPhase_iff _).2 hphase

theorem exec_closeExpiry_pitIn (h : PassingOf s l code slot p r) (hrole : (s.link l).role = .pitIn)
    (hpit : s.circuit.pit = some c) : exec (.closeExpiry l code) s =
      .next (closeEvent s ((s.seeing l code slot p r).takePitIn slot (r.seen l p) c l p.time)) := by
  obtain ⟨hexec, hphase⟩ := exec_closeExpiry_passing h
  rw [hexec, State.dispatch_pitIn hphase State.seeing_record (by rw [State.seeing_link]; exact hrole)
    (by rw [State.seeing_circuit]; exact hpit)]

theorem exec_closeExpiry_pitOut (h : PassingOf s l code slot p r) (hrole : (s.link l).role = .pitOut)
    (hpit : s.circuit.pit = some c) : exec (.closeExpiry l code) s =
      .next (closeEvent s ((s.seeing l code slot p r).takePitOut slot (r.seen l p) c l p.time)) := by
  obtain ⟨hexec, hphase⟩ := exec_closeExpiry_passing h
  rw [hexec, State.dispatch_pitOut hphase State.seeing_record (by rw [State.seeing_link]; exact hrole)
    (by rw [State.seeing_circuit]; exact hpit)]

theorem Record.outOfOrder_late (h : ∃ u ∈ r.latest, p.time < u) : (r.seen l p).outOfOrder p.time = true :=
  (Record.outOfOrder_iff _ _).2 h

theorem Record.outOfOrder_inOrder (h : ∀ u ∈ r.latest, u ≤ p.time) : (r.seen l p).outOfOrder p.time = false := by
  rw [Bool.eq_false_iff]
  intro hx
  obtain ⟨u, hu, hlt⟩ := (Record.outOfOrder_iff _ _).1 hx
  exact Nat.lt_irrefl _ (Nat.lt_of_lt_of_le hlt (h u hu))

/-- The event of a passing that leaves its record as `x`. -/
theorem State.Leaves.scored {u : State} (h : s.Leaves u l code slot x) (hs : s.settled) :
    Scored s (closeEvent s u) l code slot ∧ (closeEvent s u).session = s.session ∧ KeepsLead s (closeEvent s u) ∧
    ∃ y, (closeEvent s u).record? slot = some y ∧ OnlyPlaced x y := by
  obtain ⟨hkeyed, hlead, y, hy, hplaced⟩ := h
  obtain ⟨hscored, hsession, hrace, horder⟩ := hkeyed.scored hs
  refine ⟨hscored, hsession, ?_, y, ?_, hplaced⟩
  · unfold KeepsLead
    rw [horder]
    exact hlead
  · rw [State.record?, hrace]
    exact hy

end

/-- Settles O41. -/
theorem pitEntry : Obligations.PitEntry := by
  intro s l code slot p r c h hrole hpit hin hout hsized hlines
  refine ⟨_, exec_closeExpiry_pitIn h hrole hpit, fun hstate => ?_, fun hstate hlate => ?_, fun hgo => ?_⟩
  · rw [show State.takePitIn _ slot (r.seen l p) c l p.time = (s.seeing l code slot p r).reject slot l p.time .echo by
      unfold State.takePitIn
      rw [show (r.seen l p).state = .pit from hstate]]
    exact closeEvent_rejected h .echo
  · rw [show State.takePitIn _ slot (r.seen l p) c l p.time =
        (s.seeing l code slot p r).reject slot l p.time .outOfState by
      unfold State.takePitIn
      rw [show (r.seen l p).state = .running from hstate]
      exact if_pos (Record.outOfOrder_late hlate)]
    exact closeEvent_rejected h .outOfState
  · have hrun : r.state = .running ∨ r.state = .enrolled ∧ r.lastPos = none := hgo.symm.imp_left And.left
    have henters : (s.seeing l code slot p r).takePitIn slot (r.seen l p) c l p.time =
        (s.seeing l code slot p r).pitEntry slot (r.seen l p) c s.session.phase (some p.time) p.time := by
      unfold State.takePitIn
      rcases hgo with ⟨hstate, -⟩ | ⟨hstate, horder⟩
      · rw [show (r.seen l p).state = .enrolled from hstate, State.seeing_session]
      · rw [show (r.seen l p).state = .running from hstate, State.seeing_session]
        exact if_neg (Bool.eq_false_iff.1 (Record.outOfOrder_inOrder horder))
    obtain ⟨r', hsettles, hfinishes, hleaves⟩ := State.pitEntry_outcome h hin hrun hsized hlines (some p.time)
    rw [henters]
    exact ⟨r', hsettles, fun e hlaps he => (hfinishes e hlaps he).1, fun hno => (hleaves hno).scored h.1⟩

end Sys2Proof.Machine
end

section
/-! The record at the rejoin (R108 to R110). -/

namespace Sys2Proof.Machine

/-! ## A lap that ends, and the live delta (R97, R98) -/

/-- DELTA_CROSS joins before or after the notices of the lap that ends. -/
theorem Record.ended_holdDelta (r : Record) (dir : DeltaDirection) (b d : Option Int) (lap : LastLap) (t : Nat) :
    (r.holdDelta dir b d).ended lap t =
      { r.ended lap t with
        delta := d,
        notices := if deltaCrosses dir b d then addNotice (r.ended lap t).notices .deltaCross
          else (r.ended lap t).notices } := by
  have hnotices : ((r.holdDelta dir b d).ended lap t).notices =
      if deltaCrosses dir b d then addNotice (r.ended lap t).notices .deltaCross else (r.ended lap t).notices := by
    unfold Record.holdDelta Record.ended
    dsimp only
    by_cases hcross : deltaCrosses dir b d = true
    · rw [if_pos hcross, if_pos hcross]
      split
      · exact addNotice_comm ..
      · rw [addNotice_comm _ .deltaCross .newBest, addNotice_comm _ .deltaCross .lap]
    · rw [if_neg hcross, if_neg hcross]
  rw [← hnotices]
  rfl

section
variable {s : State} {r : Record} {c : PitSettings} {t : Nat} {exit : Option Nat}

/-- The lap that ends at the rejoin (R110). -/
def Record.rejoinLap (r : Record) (exit : Option Nat) : LastLap :=
  { number := r.oneMore, flags := r.lapFlags, sectors := r.sectors, time := r.rejoinLapTime exit }

/-- Without an exit time the lap has no time, and no best lap is set at any time. -/
theorem Record.ended_rejoinLap (hexit : ∀ e ∈ exit, e = t) :
    r.ended (r.rejoinLap exit) t = r.ended (r.rejoinLap exit) (exit.getD 0) := by
  cases exit with
  | none => rfl
  | some e => rw [hexit e rfl]; rfl

theorem rejoinCompletes_iff (c : PitSettings) (r : Record) : rejoinCompletes c r = true ↔ r.lapsAtRejoin c := by
  simp [rejoinCompletes, bypassesLine_iff, Record.lapsAtRejoin]

/-- The record at a rejoin that completes no lap (R110). -/
theorem State.rejoinedRecord_open (hno : ¬ r.lapsAtRejoin c) (hlines : 1 ≤ s.lineCount) :
    { s.rejoinedRecord r c exit t with state := .running } = r.rejoined s c exit := by
  have hdone : ¬ rejoinCompletes c r = true := fun h => hno ((rejoinCompletes_iff c r).1 h)
  unfold State.rejoinedRecord Record.rejoined
  dsimp only
  cases exit <;> simp only [if_neg hdone, if_neg hno, rejoinPos_eq s hlines]

/-- The record at a rejoin that completes a lap, and the lap that starts unless it ended in the chequer (R110). -/
theorem State.rejoinedRecord_lap (hlaps : r.lapsAtRejoin c) (hlines : 1 ≤ s.lineCount) (hexit : ∀ e ∈ exit, e = t)
    (hsized : r.bestSectors.length = r.sectors.length) :
    (s.session.phase ≠ .chequered → { s.rejoinedRecord r c exit t with state := .running } = r.rejoined s c exit) ∧
    (r.state = .pit → (s.rejoinedRecord r c exit t).SameRaceKey (r.rejoined s c exit)) ∧
    ∀ f, (s.rejoinedRecord r c exit t).flagged s.lineCount f t = (r.rejoined s c exit).flagged s.lineCount f t := by
  have hdone : rejoinCompletes c r = true := (rejoinCompletes_iff c r).2 hlaps
  obtain ⟨hskips, hlast⟩ := id hlaps
  let lap := r.rejoinLap exit
  let d := completionDelta (r.rejoinLapTime exit) r.bestLap
  have hcrosses : deltaCrosses s.deltaDirection r.previousDelta d =
      (r.lastTime.isSome && r.delta.any fun a => d.any fun b => signChange s.deltaDirection a b) := by
    rw [deltaCrosses_eq, Record.previousDelta_any r hlast, decide_eq_true (show c.inAfter ≠ 0 by omega), Bool.true_and]
  have hended : r.completeLap s.deltaDirection (r.rejoinLapTime exit) t =
      { r.ended lap (exit.getD 0) with
        delta := d,
        notices := if r.lastTime.isSome && r.delta.any fun a => d.any fun b => signChange s.deltaDirection a b then
          addNotice (r.ended lap (exit.getD 0)).notices .deltaCross else (r.ended lap (exit.getD 0)).notices } := by
    rw [Record.completeLap_ended _ _ _ t hsized, Record.ended_holdDelta, hcrosses]
    exact congrArg (fun o : Record => { o with
      delta := d,
      notices := if r.lastTime.isSome && r.delta.any fun a => d.any fun b => signChange s.deltaDirection a b then
        addNotice o.notices .deltaCross else o.notices }) (Record.ended_rejoinLap hexit)
  have hmarks : carriedMarks c = c.outBefore := if_pos ((bypassesLine_iff c).2 hskips)
  have hwrites : s.rejoinedRecord r c exit t =
      { (if s.session.phase = .chequered then r.completeLap s.deltaDirection (r.rejoinLapTime exit) t
          else (r.completeLap s.deltaDirection (r.rejoinLapTime exit) t).startLap s.lineCount exit c.outBefore .bypassed
            (s.newFlags true)) with
        elapsed := match exit with | some x => some (elapsedIn s x) | none => r.elapsed,
        lastPos := some (s.rejoinAt c), lastTime := none,
        latest := match exit with | some x => some x | none => r.latest } := by
    rw [hended]
    unfold State.rejoinedRecord
    dsimp only
    rw [if_pos hdone, hmarks, rejoinPos_eq s hlines, State.startFlags_eq, hended]
    split <;> cases exit <;> rfl
  have hrejoined : r.rejoined s c exit =
      { (r.completeLap s.deltaDirection (r.rejoinLapTime exit) t).startLap s.lineCount exit c.outBefore .bypassed
          (s.newFlags true) with
        elapsed := match exit with | some x => some (elapsedIn s x) | none => r.elapsed,
        state := .running, lastPos := some (s.rejoinAt c), lastTime := none,
        latest := match exit with | some x => some x | none => r.latest } := by
    rw [hended]
    unfold Record.rejoined Record.startLap
    dsimp only
    rw [if_pos hlaps, paint_eq_spanned]
    cases exit with
    | none => rfl
    | some e =>
      cases hstart : r.lapStart with
      | none =>
        have htime : r.rejoinLapTime (some e) = .untimed := by rw [Record.rejoinLapTime, hstart]
        simp only [lap, d, Record.rejoinLap, htime]
        rfl
      | some u =>
        have htime : r.rejoinLapTime (some e) = .timed (store32 (e - u)) := by rw [Record.rejoinLapTime, hstart]
        simp only [lap, d, Record.rejoinLap, htime]
        rfl
  rw [hwrites, hrejoined]
  refine ⟨fun hne => ?_, fun hstate => ?_, fun f => ?_⟩
  · rw [if_neg hne]
  · rw [hended]
    split <;> exact ⟨rfl, rfl, by simp [Record.raceTime, Record.startLap, Record.ended, hstate]⟩
  · rw [hended]
    split <;> rfl

end

end Sys2Proof.Machine
end

section
/-! What a rejoin leaves, and the pit-out passings (R105, R108 to R112). -/

namespace Sys2Proof.Machine

section
variable {s : State} {l : LinkNo} {code slot : Nat} {p : OpenPassing} {r w : Record} {c : PitSettings}
  {exit : Option Nat} {t : Nat}

theorem SameCourse.rejoinedRecord {v : State} (h : SameCourse s v) : v.rejoinedRecord = s.rejoinedRecord := by
  funext r c x t
  unfold State.rejoinedRecord
  rw [h.lineCount, h.deltaDirection, h.session, h.elapsedAt]

/-- A rejoined record leaves its record's identity, its sighting and its place. -/
theorem State.rejoinedRecord_place (s : State) (r : Record) (c : PitSettings) (exit : Option Nat) (t : Nat) :
    (s.rejoinedRecord r c exit t).identity = r.identity ∧ (s.rejoinedRecord r c exit t).sighting = r.sighting ∧
    (s.rejoinedRecord r c exit t).position = r.position := by
  unfold State.rejoinedRecord
  dsimp only
  split
  · rw [Record.completeLap_eq]
    split <;> exact ⟨rfl, rfl, rfl⟩
  · exact ⟨rfl, rfl, rfl⟩

theorem OnlyPlaced.become {x y : Record} (h : OnlyPlaced x y) (st : RecState) : OnlyPlaced (x.become st) (y.become st) := by
  obtain ⟨heq, hgap, hnone⟩ := h
  exact ⟨congrArg (fun o : Record => o.become st) heq, hgap, hnone⟩

/-- A record keeps its key as it leaves the pit lane (R57, R117, R118). -/
theorem Record.become_orderEntry {y : Record} (hpit : y.state = .pit) (ty : SessionType) (slot : Nat) :
    orderEntry ty (slot, y.become .running) = orderEntry ty (slot, y) := by
  have hprogress : (y.become .running).progress = y.progress := rfl
  have htime : (y.become .running).keyTime = y.keyTime := by simp [Record.keyTime, Record.become, hpit]
  have hkey : (y.become .running).orderKey ty slot = y.orderKey ty slot := by
    cases ty with
    | race =>
      simp only [Record.orderKey, Record.raceKey, hprogress, htime]
      rfl
    | practice | qualifying => rfl
  unfold orderEntry
  dsimp only
  rw [hkey, hpit]
  rfl

theorem OnlyMoved.flagged {x y : Record} (h : OnlyMoved x y) (lines : Nat) (f : Option Nat) (t : Nat) :
    OnlyMoved (x.flagged lines f t) (y.flagged lines f t) := by
  have hlate : OnlyMoved { x with latest := some t } { y with latest := some t } := by
    obtain ⟨heq, hrest⟩ := h
    exact ⟨congrArg (fun o : Record => { o with latest := some t }) heq, hrest⟩
  exact hlate.finished lines f

/-- What a record in PIT that has left the pit lane as `w` becomes at its rejoin (R110, R114). -/
theorem State.rejoin_outcome (h : PassingOf s l code slot p r) (hpit : r.state = .pit) (hident : w.identity = r.identity)
    (hposition : w.position = r.position) (hsight : w.sighting = (r.seen l p).sighting) (hstate : w.state = .pit)
    (hlines : 1 ≤ s.lineCount) (hsized : w.bestSectors.length = w.sectors.length) (hexit : ∀ e ∈ exit, e = p.time) :
    let r' := w.rejoined s c exit
    let u := (s.seeing l code slot p r).rejoin slot w c s.session.phase exit p.time
    (∀ e, w.lapsAtRejoin c → s.chequeredBy slot r' e →
      FinishesAs s (closeEvent s u) l code slot (r'.flagged s.lineCount exit p.time) e ∧ u.notFinished slot = false) ∧
    ((w.lapsAtRejoin c → ∀ e, ¬ s.chequeredBy slot r' e) → s.Leaves u l code slot r') := by
  have hr : s.record? slot = some r := h.2.2.2.2.1
  have hphase := h.2.2.2.2.2
  intro r' u
  let x := s.rejoinedRecord w c exit p.time
  obtain ⟨hxident, hxsight, hxposition⟩ := s.rejoinedRecord_place w c exit p.time
  have hxstate : x.state = .pit := (s.rejoinedRecord_standing w c exit p.time).1.trans hstate
  have hwrite : (s.seeing l code slot p r).putRecord slot ((s.seeing l code slot p r).rejoinedRecord w c exit p.time) =
      (s.gone l code).putRecord slot x := by
    rw [(State.seeing_course hr).rejoinedRecord]
    exact State.seeing_putRecord hr (hxsight.trans hsight)
  by_cases hlaps : w.lapsAtRejoin c
  case neg =>
    refine ⟨fun e hx => absurd hx hlaps, fun _ => ?_⟩
    have hbecomes : x.become .running = r' := State.rejoinedRecord_open hlaps hlines
    have hback : u = ((s.gone l code).putRecord slot r').reorder := by
      change State.rejoin _ _ _ _ _ _ _ = _
      unfold State.rejoin
      dsimp only
      rw [if_neg fun hx => hlaps ((rejoinCompletes_iff c w).1 hx), hwrite, State.backOnTrack,
        State.updRecord_putRecord fun hback => ?_, hbecomes]
      have hsame := Option.some.inj (hr.symm.trans hback)
      exact absurd (hpit.symm.trans (congrArg Record.state hsame)) (by simp [Record.become])
    rw [hback]
    obtain ⟨hkeyed, hlead, y, hy, hplaced, -⟩ := Keyed.of_written (x := r') h
      (by rw [← hbecomes]; exact hxident.trans hident) (by rw [← hbecomes]; exact hxposition.trans hposition)
      (by rw [← hbecomes]; rfl)
    exact ⟨hkeyed, hlead, y, hy, hplaced⟩
  case pos =>
    obtain ⟨hopen, hkey, hflagged⟩ := State.rejoinedRecord_lap hlaps hlines hexit hsized
    let z := ((s.gone l code).putRecord slot x).reorder
    obtain ⟨hkeyed, hlead, y, hy, hplaced, hsome, -⟩ := Keyed.of_written (x := x) h (hxident.trans hident)
      (hxposition.trans hposition) (by rw [hxstate]; rfl)
    have hystate : y.state = .pit := hplaced.state.trans hxstate
    obtain ⟨hbrings, hstays⟩ := (HandedOn.of_keyed hkeyed hy hplaced (.inr hxstate) (hkey hstate)).completion hphase
    have hrejoin : u = if (z.completion slot s.session.phase).session.phase = .chequered then
        ((z.completion slot s.session.phase).updRecord slot fun r => { r with latest := some p.time }).finishRecord slot exit
        else (z.completion slot s.session.phase).backOnTrack slot := by
      change State.rejoin _ _ _ _ _ _ _ = _
      unfold State.rejoin
      dsimp only
      rw [if_pos ((rejoinCompletes_iff c w).2 hlaps), hwrite]
    refine ⟨fun e _ he => ?_, fun hno => ?_⟩
    · obtain ⟨hcompletion, he⟩ := hbrings e he
      have hends : u = z.finishing e slot (y.flagged s.lineCount exit p.time) := by
        rw [hrejoin, hcompletion, if_pos (show (z.setSession e).session.phase = .chequered from he.1),
          State.updRecord_some (s := z.setSession e) hy, State.finishRecord,
          State.putRecord_lineCount, show (z.setSession e).lineCount = s.lineCount from hkeyed.lineCount,
          State.updRecord_putRecord fun hback => ?_]
        · rfl
        · have hsame : y = _ := Option.some.inj (hy.symm.trans hback)
          exact absurd (hystate.symm.trans (congrArg Record.state hsame)) (by simp [Record.finished])
      rw [hends]
      refine ⟨?_, State.finishing_notFinished hkeyed.told.wf rfl⟩
      rw [← hflagged]
      exact hkeyed.finishesAs hlead hy rfl rfl (hplaced.onlyMoved.flagged s.lineCount exit p.time) hsome he
    · obtain ⟨hcompletion, hne⟩ := hstays (hno hlaps)
      have hput : Keyed (s.gone l code) (z.putRecord slot (y.become .running)) slot :=
        hkeyed.putRecord hy rfl (fun ty => Record.become_orderEntry hystate ty slot) rfl rfl fun hback => by
          have hsame := Option.some.inj (hr.symm.trans hback)
          exact absurd (hpit.symm.trans (congrArg Record.state hsame)) (by simp [Record.become])
      have hgoes : u = z.putRecord slot (y.become .running) := by
        rw [hrejoin, hcompletion, if_neg (show z.session.phase ≠ .chequered from hkeyed.session ▸ hne),
          State.backOnTrack, State.updRecord_some hy]
        exact State.reorder_of_agrees hput.agrees
      rw [hgoes]
      have hbecomes : x.become .running = r' := hopen hne
      exact ⟨hput, hlead.trans (z.putRecord_keepsLead slot _), _, State.putRecord_record_self ..,
        hbecomes ▸ hplaced.become .running⟩

end

end Sys2Proof.Machine
end

section
/-! The pit-out passings (R105, R108 to R112). -/

namespace Sys2Proof.Machine

section
variable {s : State} {l : LinkNo} {code slot : Nat} {p : OpenPassing} {r : Record} {c : PitSettings} {t : Nat}

theorem Record.exitEcho_iff (s : State) (r : Record) (t : Nat) : r.exitEcho s.echoGuard t = true ↔ exitEchoed s r t := by
  unfold Record.exitEcho exitEchoed
  rw [State.echoGuard_eq]
  cases r.pit with
  | none => simp
  | some y => cases hexit : y.exit <;> simp [hexit]

theorem pitSpeed_eq {u t : Nat} (h : u ≤ t) (length : Nat) :
    pitSpeed length (t - u) = if t = u then 65535 else min (length * 360000 / (t - u)) 65535 := by
  unfold pitSpeed
  by_cases hz : t = u
  · rw [if_pos hz, if_pos (by omega)]
  · rw [if_neg hz, if_neg (by omega)]

/-- A stop whose entry was timed, closed at an exit (R108, R109). -/
theorem PitRecord.closedAt_timed {y : PitRecord} {u : Nat} (hentry : y.entry = some u) :
    y.closedAt c t =
      { entry := some u, exit := some t, transit := some (store32 (t - u)), speed := some (pitSpeed c.length (t - u)),
        speeding := decide (c.limit < pitSpeed c.length (t - u)), isOpen := false } := by
  unfold PitRecord.closedAt
  rw [hentry]

theorem PitRecord.closedAt_untimed {y : PitRecord} (hentry : y.entry = none) :
    y.closedAt c t = { y with exit := some t, speeding := false, isOpen := false } := by
  unfold PitRecord.closedAt
  rw [hentry]

theorem Record.exitPit_of_pit {y : PitRecord} (h : r.pit = some y) : r.exitPit c t =
    { r with
      pit := some (y.closedAt c t),
      notices := if (y.closedAt c t).speeding then addNotice r.notices .pitSpeeding else r.notices } := by
  unfold Record.exitPit
  rw [h]

/-- The record started from the pit lane (R112). -/
def State.pitStarted (s : State) (r : Record) (c : PitSettings) (t : Nat) : Record :=
  { r with
    state := .running, lastPos := some (s.rejoinAt c), latest := some t,
    lapFlags := addLap (if s.session.phase = .caution then addLap r.lapFlags .caution else r.lapFlags) .out }

theorem Record.pitLaneStart_eq (s : State) (r : Record) (c : PitSettings) (t : Nat) (hlines : 1 ≤ s.lineCount) :
    r.pitLaneStart c s.lineCount (decide (s.session.phase = .caution)) t = s.pitStarted r c t := by
  have hflags : (if decide (s.session.phase = .caution) then addLap (addLap r.lapFlags .out) .caution
        else addLap r.lapFlags .out) =
      addLap (if s.session.phase = .caution then addLap r.lapFlags .caution else r.lapFlags) .out := by
    by_cases hc : s.session.phase = .caution
    · simp only [hc, decide_true, if_true, addLap, addBit]
      rw [BitVec.or_assoc, BitVec.or_comm (oneOf 4 _), ← BitVec.or_assoc]
    · simp [hc]
  unfold Record.pitLaneStart State.pitStarted
  rw [← hflags, rejoinPos_eq s hlines]

/-- A pit-out passing of an ENROLLED record starts it from the pit lane (R112). -/
theorem State.pitLaneStart_leaves (h : PassingOf s l code slot p r) (hlines : 1 ≤ s.lineCount) :
    s.Leaves ((s.seeing l code slot p r).putRecord slot ((r.seen l p).pitLaneStart c s.lineCount
      (decide (s.session.phase = .caution)) p.time)).reorder l code slot (s.pitStarted (r.seen l p) c p.time) := by
  rw [Record.pitLaneStart_eq s _ c _ hlines,
    State.seeing_putRecord (x := s.pitStarted (r.seen l p) c p.time) h.2.2.2.2.1 rfl]
  obtain ⟨hkeyed, hlead, y, hy, hplaced, -⟩ := Keyed.of_written (x := s.pitStarted (r.seen l p) c p.time) h rfl rfl rfl
  exact ⟨hkeyed, hlead, y, hy, hplaced⟩

end

/-- Settles O42. -/
theorem pitExit : Obligations.PitExit := by
  intro s l code slot p r c h hrole hpit hin hout hsized
  have hlines : 1 ≤ s.lineCount := by omega
  refine ⟨_, exec_closeExpiry_pitOut h hrole hpit, fun hstate hlate => ?_, fun hstate horder hecho => ?_,
    fun hstate => ?_, fun hstate horder y hy hentry => ?_⟩
  · have hrejects : (s.seeing l code slot p r).takePitOut slot (r.seen l p) c l p.time =
        (s.seeing l code slot p r).reject slot l p.time .outOfState := by
      unfold State.takePitOut
      rcases hstate with hstate | hstate
      · rw [show (r.seen l p).state = .running from hstate]
        exact if_pos (Record.outOfOrder_late hlate)
      · rw [show (r.seen l p).state = .pit from hstate]
        exact if_pos (Record.outOfOrder_late hlate)
    rw [hrejects]
    exact closeEvent_rejected h .outOfState
  · have hrejects : (s.seeing l code slot p r).takePitOut slot (r.seen l p) c l p.time =
        (s.seeing l code slot p r).reject slot l p.time .echo := by
      unfold State.takePitOut
      rw [show (r.seen l p).state = .running from hstate]
      dsimp only
      rw [Record.outOfOrder_inOrder horder, (State.seeing_course h.2.2.2.2.1).echoGuard]
      exact if_pos ((Record.exitEcho_iff s r p.time).2 hecho)
    rw [hrejects]
    exact closeEvent_rejected h .echo
  · have hstarts : (s.seeing l code slot p r).takePitOut slot (r.seen l p) c l p.time =
        (s.seeing l code slot p r).putRecord slot ((r.seen l p).pitLaneStart c s.lineCount
          (decide (s.session.phase = .caution)) p.time) := by
      unfold State.takePitOut
      rw [show (r.seen l p).state = .enrolled from hstate]
      dsimp only
      rw [(State.seeing_course h.2.2.2.2.1).lineCount, State.seeing_session]
    rw [hstarts, ← closeEvent_reorder]
    exact (State.pitLaneStart_leaves h hlines).scored h.1
  · intro speed closed r'
    have hclosed : y.closedAt c p.time = closed := by
      obtain ⟨entry, exit, transit, stopSpeed, speeding, isOpen⟩ := y
      cases entry with
      | none => exact PitRecord.closedAt_untimed rfl
      | some u =>
        rw [PitRecord.closedAt_timed rfl, pitSpeed_eq (hentry u rfl)]
        rfl
    have hexits : (s.seeing l code slot p r).takePitOut slot (r.seen l p) c l p.time =
        (s.seeing l code slot p r).rejoin slot { r.seen l p with
          pit := some closed, notices := if closed.speeding then addNotice r.notices .pitSpeeding else r.notices }
          c s.session.phase (some p.time) p.time := by
      unfold State.takePitOut
      rw [show (r.seen l p).state = .pit from hstate]
      dsimp only
      rw [Record.outOfOrder_inOrder horder, if_neg Bool.false_ne_true, State.pitExit, State.seeing_record]
      dsimp only
      rw [Record.exitPit_of_pit (r := r.seen l p) hy, hclosed, State.seeing_session]
      rfl
    have hsectors : r.bestSectors.length = r.sectors.length := hsized.2.1.trans hsized.1.symm
    obtain ⟨hfinishes, hleaves⟩ := State.rejoin_outcome (c := c) (exit := some p.time)
      (w := { r.seen l p with
        pit := some closed, notices := if closed.speeding then addNotice r.notices .pitSpeeding else r.notices })
      h hstate rfl rfl rfl hstate hlines hsectors (by simp)
    rw [hexits]
    exact ⟨fun e hlaps he => (hfinishes e hlaps he).1, fun hno => (hleaves hno).scored h.1⟩

end Sys2Proof.Machine
end

section
/-! What scoring writes does not read the reporting unit, and only adds to it: slots to the changed-slot set and ORDER
(R74, R121). -/

namespace Sys2Proof.Machine

/-- The reporting unit with these slots joined to the changed-slot set, and ORDER raised where it is due. -/
def Reporting.noted (ρ : Reporting) (ns : List Nat) (order : Bool) : Reporting :=
  { ρ with
    changed := ns.foldl (fun c n => joinSlot n c) ρ.changed,
    causes := if order then addCause ρ.causes .order else ρ.causes }

theorem Reporting.noted_noted (ρ : Reporting) (ns ms : List Nat) (a b : Bool) :
    (ρ.noted ns a).noted ms b = ρ.noted (ns ++ ms) (a || b) := by
  have hcauses : addCause (addCause ρ.causes .order) .order = addCause ρ.causes .order := by
    unfold addCause addBit
    rw [BitVec.or_assoc, BitVec.or_self]
  unfold Reporting.noted
  rw [List.foldl_append]
  cases a <;> cases b <;> simp [hcauses]

theorem mem_noted (ρ : Reporting) (ns : List Nat) (b : Bool) (n : Nat) :
    n ∈ (ρ.noted ns b).changed ↔ n ∈ ρ.changed ∨ n ∈ ns := by
  have hfold : ∀ (ns : List Nat) (c : List Nat), n ∈ ns.foldl (fun c n => joinSlot n c) c ↔ n ∈ c ∨ n ∈ ns := by
    intro ns
    induction ns with
    | nil => simp
    | cons m ms ih =>
      intro c
      rw [List.foldl_cons, ih, mem_joinSlot, List.mem_cons]
      tauto
  exact hfold ns ρ.changed

/-- The part with another reporting unit. -/
def State.withReport (s : State) (ρ : Reporting) : State := { s with report := ρ }

theorem State.withReport_lineCount (s : State) (ρ : Reporting) : (s.withReport ρ).lineCount = s.lineCount := rfl

/-- On the part `s` the operation `f` adds the same to every reporting unit, and otherwise does the same. -/
def Notes (s : State) (f : State → State) : Prop :=
  ∃ ns b, ∀ ρ, f (s.withReport ρ) = (f s).withReport (ρ.noted ns b)

section
variable {s : State} {f g : State → State}

theorem Notes.id (s : State) : Notes s fun u => u := ⟨[], false, fun _ => rfl⟩

theorem Notes.comp (h : Notes s f) (k : Notes (f s) g) : Notes s fun u => g (f u) := by
  obtain ⟨ns, a, hf⟩ := h
  obtain ⟨ms, b, hg⟩ := k
  refine ⟨ns ++ ms, a || b, fun ρ => ?_⟩
  dsimp only
  rw [hf, hg, Reporting.noted_noted]

/-- What decides between two operations may not read the reporting unit. -/
theorem Notes.congr (k : Notes s g) (h : ∀ ρ, f (s.withReport ρ) = g (s.withReport ρ)) : Notes s f := by
  obtain ⟨ns, b, hg⟩ := k
  exact ⟨ns, b, fun ρ => by rw [h, hg, ← show f s = g s from h s.report]⟩

theorem Notes.putRecord (s : State) (n : Nat) (r : Record) : Notes s fun u => u.putRecord n r := by
  by_cases h : s.record? n = some r
  · exact (Notes.id s).congr fun ρ => if_pos h
  · refine ⟨[n], false, fun ρ => ?_⟩
    dsimp only
    have hs : s.putRecord n r = (s.setRecords (s.table.records.put n r)).markChanged n := if_neg h
    have hρ : (s.withReport ρ).putRecord n r =
        ((s.withReport ρ).setRecords (s.table.records.put n r)).markChanged n := if_neg h
    rw [hs, hρ]
    rfl

theorem Notes.updRecord (s : State) (n : Nat) (f : Record → Record) : Notes s fun u => u.updRecord n f := by
  cases h : s.record? n with
  | none => exact (Notes.id s).congr fun ρ => State.updRecord_none (s := s.withReport ρ) h f
  | some r => exact (Notes.putRecord s n (f r)).congr fun ρ => State.updRecord_some (s := s.withReport ρ) h f

theorem Notes.setSession (s : State) (c : Session) : Notes s fun u => u.setSession c := ⟨[], false, fun _ => rfl⟩

theorem Notes.mapOrder (s : State) (f : OrderBlock → OrderBlock) : Notes s fun u => { u with order := f u.order } :=
  ⟨[], false, fun _ => rfl⟩

theorem Notes.raiseOrder (s : State) : Notes s fun u => u.raise .order := ⟨[], true, fun _ => rfl⟩

theorem Notes.updAll (s : State) (f : Nat → Record → Record) : Notes s fun u => u.updAll f := by
  refine ⟨(touchedSlots f s.table.records).map Prod.fst, false, fun ρ => ?_⟩
  dsimp only
  rw [State.updAll_eq, State.updAll_eq]
  unfold Reporting.noted
  rw [List.foldl_map]
  rfl

theorem Notes.reorder (s : State) : Notes s State.reorder := by
  let list := orderOf s.keyType s.table.records
  have hlist : Notes s fun u => { u.updAll fun n r => r.takePlace (placeOf list n) with
      order := { (u.updAll fun n r => r.takePlace (placeOf list n)).order with list := list } } :=
    (Notes.updAll s fun n r => r.takePlace (placeOf list n)).comp (.mapOrder _ fun o => { o with list := list })
  by_cases h : ((s.table.records.any fun p => decide (p.2.position ≠ placeOf list p.1)) ||
      decide (list ≠ s.order.list)) = true
  · exact (hlist.comp (.raiseOrder _)).congr fun ρ => if_pos h
  · exact hlist.congr fun ρ => if_neg h

/-! ## The chequer and the close (R140 to R142) -/

theorem Notes.fieldIn (s : State) : Notes s State.fieldIn := by
  by_cases h : s.session.phase = .chequered ∧ s.fieldEmpty
  · exact (Notes.setSession s s.closeSession.session).congr fun ρ => if_pos h
  · exact (Notes.id s).congr fun ρ => if_neg h

theorem Notes.enterChequered (s : State) (cause : ChequerCause) (slot : Option Nat) :
    Notes s fun u => u.enterChequered cause slot :=
  ((Notes.setSession s (s.session.chequer s.now cause slot)).comp (.fieldIn _)).congr fun ρ =>
    State.enterChequered_fieldIn (s.withReport ρ) cause slot

theorem Notes.completion (s : State) (slot : Nat) (found : Phase) : Notes s fun u => u.completion slot found := by
  by_cases h : s.keyType = .race ∧ (found = .green ∨ found = .caution)
  · cases hr : s.record? slot with
    | none =>
      refine (Notes.id s).congr fun ρ => (if_pos h).trans ?_
      rw [show (s.withReport ρ).record? slot = none from hr]
    | some r =>
      have hcompletion : ∀ ρ, (s.withReport ρ).completion slot found =
          if s.lapLimitReached r then (s.withReport ρ).enterChequered .lapLimit (some slot)
          else if s.leaderFinishes r then (s.withReport ρ).enterChequered .leader (some slot)
          else s.withReport ρ := fun ρ => by
        refine (if_pos h).trans ?_
        rw [show (s.withReport ρ).record? slot = some r from hr]
        rfl
      by_cases hlimit : s.lapLimitReached r = true
      · exact (Notes.enterChequered s .lapLimit (some slot)).congr fun ρ => (hcompletion ρ).trans (if_pos hlimit)
      · by_cases hleader : s.leaderFinishes r = true
        · exact (Notes.enterChequered s .leader (some slot)).congr fun ρ =>
            (hcompletion ρ).trans ((if_neg hlimit).trans (if_pos hleader))
        · exact (Notes.id s).congr fun ρ => (hcompletion ρ).trans ((if_neg hlimit).trans (if_neg hleader))
  · exact (Notes.id s).congr fun ρ => if_neg h

/-! ## Line scoring -/

theorem Notes.crossing (s : State) (slot t : Nat) : Notes s fun u => u.crossing slot t := by
  have hafter : Notes s.reorder fun v => match v.record? slot with
      | none => v
      | some r =>
        if r.started then
          ({ v with order := v.order.take v.lineCount (r.crossingIndex v.lineCount) t }).putRecord slot
            { r with gap := some (v.order.outcome v.lineCount (r.crossingIndex v.lineCount) t).gap }
        else v := by
    cases hr : s.reorder.record? slot with
    | none => exact (Notes.id s.reorder).congr fun ρ => by rw [show (s.reorder.withReport ρ).record? slot = none from hr]
    | some r =>
      by_cases h : r.started = true
      · refine ((Notes.mapOrder s.reorder fun o => o.take s.reorder.lineCount (r.crossingIndex s.reorder.lineCount) t).comp
          (.putRecord _ slot { r with
            gap := some (s.reorder.order.outcome s.reorder.lineCount (r.crossingIndex s.reorder.lineCount) t).gap })).congr
          fun ρ => ?_
        rw [show (s.reorder.withReport ρ).record? slot = some r from hr]
        exact if_pos h
      · refine (Notes.id s.reorder).congr fun ρ => ?_
        rw [show (s.reorder.withReport ρ).record? slot = some r from hr]
        exact if_neg h
  exact ((Notes.reorder s).comp hafter).congr fun ρ => by
    unfold State.crossing
    rfl

theorem Notes.finishRecord (s : State) (slot : Nat) (f : Option Nat) : Notes s fun u => u.finishRecord slot f :=
  (((Notes.updRecord s slot fun r => r.finished s.lineCount f).comp (.reorder _)).comp (.fieldIn _)).congr fun ρ => by
    rw [State.finishRecord, State.withReport_lineCount]

theorem Notes.finishIfChequered (s : State) (slot : Nat) (done : Bool) (f : Option Nat) :
    Notes s fun u => u.finishIfChequered slot done f := by
  by_cases h : done ∧ s.session.phase = .chequered
  · exact (Notes.finishRecord s slot f).congr fun ρ => if_pos h
  · exact (Notes.id s).congr fun ρ => if_neg h

theorem State.withReport_course (s : State) (ρ : Reporting) : SameCourse s (s.withReport ρ) :=
  ⟨rfl, rfl, rfl, fun _ => rfl, fun _ => rfl⟩

theorem Notes.reject (s : State) (slot : Nat) (l : LinkNo) (t : Nat) (why : Reason) :
    Notes s fun u => u.reject slot l t why := .updRecord s slot fun r => r.reject l t why

theorem Notes.firstLine (s : State) (slot : Nat) (r : Record) (pos t : Nat) : Notes s fun u => u.firstLine slot r pos t :=
  ((Notes.putRecord s slot (r.firstLine (decide (s.session.phase = .caution)) pos t (s.elapsedAt t))).comp
    (.crossing _ slot t)).congr fun ρ => by
      rw [State.firstLine, (s.withReport_course ρ).elapsedAt, (s.withReport_course ρ).session]

theorem Notes.scoreStep (s : State) (slot : Nat) (r : Record) (q k pos t : Nat) :
    Notes s fun u => u.scoreStep slot r q k pos t := by
  have hcrosses := (Notes.putRecord s slot (s.steppedRecord r q k pos t)).comp (.crossing _ slot t)
  let f : Option Nat := if pos = 0 then some t else none
  have hscores : ∀ ρ, (s.withReport ρ).scoreStep slot r q k pos t =
      (if completes s.lineCount q k then
          (((s.withReport ρ).putRecord slot (s.steppedRecord r q k pos t)).crossing slot t).completion slot s.session.phase
        else ((s.withReport ρ).putRecord slot (s.steppedRecord r q k pos t)).crossing slot t).finishIfChequered slot
        (completes s.lineCount q k) f := fun ρ => by
    rw [State.scoreStep, (s.withReport_course ρ).steppedRecord, (s.withReport_course ρ).session,
      State.withReport_lineCount]
  by_cases hdone : completes s.lineCount q k = true
  · refine ((hcrosses.comp (.completion _ slot s.session.phase)).comp
      (.finishIfChequered _ slot (completes s.lineCount q k) f)).congr fun ρ => ?_
    rw [hscores, if_pos hdone]
  · refine (hcrosses.comp (.finishIfChequered _ slot (completes s.lineCount q k) f)).congr fun ρ => ?_
    rw [hscores, if_neg hdone]

/-- A line passing in line scoring's hands (R79). -/
theorem Notes.scoreLine (s : State) (slot : Nat) (l : LinkNo) (pos t : Nat) :
    Notes s fun u => u.scoreLine slot l pos t := by
  cases hr : s.record? slot with
  | none =>
    refine (Notes.id s).congr fun ρ => ?_
    rw [State.scoreLine, show (s.withReport ρ).record? slot = none from hr]
  | some r =>
    cases hlast : r.lastPos with
    | none =>
      refine (Notes.firstLine s slot r pos t).congr fun ρ => ?_
      unfold State.scoreLine
      rw [show (s.withReport ρ).record? slot = some r from hr]
      dsimp only
      rw [hlast]
    | some q =>
      cases htest : s.lineTest q r.lastTime r.reference pos t with
      | rejected why =>
        exact (Notes.reject s slot l t why).congr fun ρ =>
          State.scoreLine_rejected (v := s.withReport ρ) hr hlast (by rw [(s.withReport_course ρ).lineTest]; exact htest)
      | steps k =>
        exact (Notes.scoreStep s slot r q k pos t).congr fun ρ =>
          State.scoreLine_stepped (v := s.withReport ρ) hr hlast (by rw [(s.withReport_course ρ).lineTest]; exact htest)

/-! ## Leaving the pit lane -/

theorem Notes.backOnTrack (s : State) (slot : Nat) : Notes s fun u => u.backOnTrack slot :=
  (Notes.updRecord s slot fun r => r.become .running).comp (.reorder _)

theorem Notes.rejoin (s : State) (slot : Nat) (r : Record) (c : PitSettings) (found : Phase) (exit : Option Nat) (t : Nat) :
    Notes s fun u => u.rejoin slot r c found exit t := by
  have hput := Notes.putRecord s slot (s.rejoinedRecord r c exit t)
  have hwrite : ∀ ρ, (s.withReport ρ).rejoinedRecord r c exit t = s.rejoinedRecord r c exit t := fun ρ => by
    rw [(s.withReport_course ρ).rejoinedRecord]
  by_cases hlaps : rejoinCompletes c r = true
  case neg =>
    refine (hput.comp (.backOnTrack _ slot)).congr fun ρ => ?_
    unfold State.rejoin
    dsimp only
    rw [hwrite, if_neg hlaps]
  case pos =>
    have hkeyed := (hput.comp (.reorder _)).comp (.completion _ slot found)
    by_cases hphase : (((s.putRecord slot (s.rejoinedRecord r c exit t)).reorder).completion slot found).session.phase =
        .chequered
    · refine (hkeyed.comp ((Notes.updRecord _ slot fun r => { r with latest := some t }).comp
        (.finishRecord _ slot exit))).congr fun ρ => ?_
      obtain ⟨ns, b, hsame⟩ := hkeyed
      unfold State.rejoin
      dsimp only at hsame ⊢
      rw [hwrite, if_pos hlaps, if_pos]
      rw [hsame]
      exact hphase
    · refine (hkeyed.comp (.backOnTrack _ slot)).congr fun ρ => ?_
      obtain ⟨ns, b, hsame⟩ := hkeyed
      unfold State.rejoin
      dsimp only at hsame ⊢
      rw [hwrite, if_pos hlaps, if_neg]
      rw [hsame]
      exact hphase

theorem Notes.pitExit (s : State) (slot : Nat) (c : PitSettings) (found : Phase) (t : Nat) :
    Notes s fun u => u.pitExit slot c found t := by
  cases hr : s.record? slot with
  | none =>
    refine (Notes.id s).congr fun ρ => ?_
    rw [State.pitExit, show (s.withReport ρ).record? slot = none from hr]
  | some r =>
    refine (Notes.rejoin s slot (r.exitPit c t) c found (some t) t).congr fun ρ => ?_
    rw [State.pitExit, show (s.withReport ρ).record? slot = some r from hr]

end

end Sys2Proof.Machine
end

section
/-! Repairs of the pit monitor: the state a repair leaves, and the event that works it on (R111, R113, R114). -/

namespace Sys2Proof.Machine

/-- A record that holds the sighting of a passing is seen by it again as it is. -/
theorem Record.seen_again {r x : Record} {l : LinkNo} {p : OpenPassing} (h : x.sighting = (r.seen l p).sighting) :
    x.seen l p = x := by
  have hsame : (x.seen l p).sighting = x.sighting := by
    unfold Record.seen at h ⊢
    dsimp only at h ⊢
    by_cases hlater : ∃ o ∈ r.sighting, p.time < o.time
    · rw [if_pos hlater] at h
      rw [h, if_pos hlater]
    · rw [if_neg hlater] at h
      rw [h, if_neg (by simp)]
  exact congrArg (fun o => { x with sighting := o }) hsame

section
variable {s z : State} {l : LinkNo} {code slot : Nat} {p : OpenPassing} {r x : Record} {f : State → State}

/-- The part with the records and the order of `z`, as a repair leaves them. -/
def State.mended (s z : State) : State :=
  { s with table := { s.table with records := z.table.records }, order := z.order }

theorem State.Leaves.mends (h : s.Leaves z l code slot x) : Mends s (s.mended z) slot x := by
  obtain ⟨hkeyed, hlead, hrecord⟩ := h
  have hkey : (s.mended z).keyType = z.keyType := by
    rw [State.keyType, State.keyType, hkeyed.session]
    rfl
  have hagrees := hkeyed.agrees
  refine ⟨⟨rfl, rfl, rfl⟩, ⟨rfl, rfl⟩, rfl, rfl, ⟨rfl, rfl, rfl, rfl⟩, hlead, ?_, hkeyed.others, hrecord⟩
  unfold State.orderAgrees at hagrees ⊢
  rw [hkey]
  exact hagrees

theorem Keyed.mended_gone (h : Keyed (s.gone l code) z slot) : (s.mended z).gone l code = z.withReport s.report := by
  obtain ⟨time, links, circuit, ⟨records, index, unknown, unknownFull, slotLimit⟩, order, session, report, draws, pending⟩ := z
  obtain rfl : time = s.time := h.step.time
  obtain rfl : links = (s.gone l code).links := h.step.links
  obtain rfl : circuit = s.circuit := h.step.circuit
  obtain rfl : index = s.table.index := h.step.index
  obtain rfl : unknown = s.table.unknown := h.step.unknown
  obtain rfl : unknownFull = s.table.unknownFull := h.step.unknownFull
  obtain rfl : slotLimit = s.table.slotLimit := h.step.slotLimit
  obtain rfl : session = s.session := h.session
  obtain rfl : draws = s.freeDraws := h.step.freeDraws
  obtain rfl : pending = s.pending := h.step.pending
  rfl

/-- The passing that brought the repair, taken at the state the repair leaves. -/
theorem exec_closeExpiry_mended (h : PassingOf s l code slot p r) (hz : s.Leaves z l code slot x)
    (hsight : x.sighting = (r.seen l p).sighting) :
    exec (.closeExpiry l code) (s.mended z) =
      .next (closeEvent (s.mended z) ((z.withReport s.report).dispatch slot l p.time)) := by
  obtain ⟨-, -, hdue, hcode, -, hphase⟩ := h
  obtain ⟨hkeyed, -, y, hy, hplaced⟩ := hz
  have hroll : s.session.phase ≠ .rolling := by rcases hphase with h | h | h <;> rw [h] <;> simp
  have hseen : y.seen l p = y := Record.seen_again ((congrArg Record.sighting hplaced.1 :).trans hsight)
  have hsame : (s.mended z).seeing l code slot p y = z.withReport s.report := by
    rw [State.seeing, hseen, hkeyed.mended_gone]
    exact if_pos hy
  rw [exec_closeExpiry_seeing (s := s.mended z) (p := p) (slot := slot) (r := y) hdue hroll hcode hy, hsame]

theorem hasCause_noted (ρ : Reporting) (ns : List Nat) (b : Bool) (c : Cause) :
    hasCause (ρ.noted ns b).causes c = (hasCause ρ.causes c || (decide (c = .order) && b)) := by
  cases b with
  | false => simp [Reporting.noted]
  | true => simp [Reporting.noted, hasCause_addCause, eq_comm]

/-! ## A repair worked on -/

section WorkedOn

variable {ns : List Nat} {b : Bool} (hkeyed : Keyed (s.gone l code) z slot)
  (hnoted : ∀ ρ, (f (z.withReport ρ)).reorder = (f z).reorder.withReport (ρ.noted ns b))

include hnoted in
theorem report_of_noted : (f z).reorder.report = z.report.noted ns b := congrArg State.report (hnoted z.report)

include hkeyed hnoted

theorem closeEvent_repair_causes (d : Cause) : hasCause (f z).reorder.report.causes d =
    (hasCause s.report.causes d || (decide (d = .order) && (b || decide (z.order.list ≠ s.order.list)))) := by
  have htold : hasCause z.report.causes d = (hasCause s.report.causes d || decide (d ∈ []) ||
    (decide (d = .order) && decide (z.order.list ≠ s.order.list))) := hkeyed.told.causes d
  rw [report_of_noted hnoted, hasCause_noted, htold]
  cases d <;> simp [Bool.or_assoc, Bool.or_comm b]

/-- The changed-slot set after a repair that is worked on, against the set of the passing that works it on. -/
theorem closeEvent_repair_changed (n : Nat) : n ∈ (closeEvent s (f z)).report.changed ↔
    n ∈ (closeEvent (s.mended z) (f (z.withReport s.report))).report.changed ∨
      (s.mended z).record? n ≠ s.record? n := by
  obtain ⟨causes, latch, ht, -, -⟩ := closeEvent_eq s (f z)
  obtain ⟨causes', latch', hu, -, -⟩ := closeEvent_eq (s.mended z) (f (z.withReport s.report))
  have hmine : n ∈ (closeEvent s (f z)).report.changed ↔ n ∈ z.report.changed ∨ n ∈ ns := by
    rw [ht, ← mem_noted z.report ns b, ← report_of_noted hnoted]
  have htheirs : n ∈ (closeEvent (s.mended z) (f (z.withReport s.report))).report.changed ↔
      n ∈ s.report.changed ∨ n ∈ ns := by
    rw [hu, hnoted]
    exact mem_noted s.report ns b n
  rw [hmine, htheirs, hkeyed.told.changed]
  exact or_right_comm

/-- The pending causes after a repair that is worked on, against those of the passing that works it on. -/
theorem closeEvent_repair_pending (hl : s.report.legal) (cause : Cause) :
    let t := closeEvent s (f z)
    let u := closeEvent (s.mended z) (f (z.withReport s.report))
    hasCause t.report.causes cause = (hasCause s.report.causes cause || match cause with
      | .records => decide (t.report.changed ≠ [])
      | .order => hasCause u.report.causes .order || decide ((s.mended z).order.list ≠ s.order.list)
      | .session => decide (t.sessionItems ≠ s.sessionItems)
      | .loops | .time | .unknown => false) := by
  obtain ⟨causes, latch, ht, hcauses, -⟩ := closeEvent_eq s (f z)
  obtain ⟨causes', latch', hu, hcauses', -⟩ := closeEvent_eq (s.mended z) (f (z.withReport s.report))
  have hpending := closeEvent_repair_causes hkeyed hnoted
  intro t u
  have hafter : ∀ d, d ≠ .records → hasCause t.report.causes d = (hasCause s.report.causes d ||
      (decide (d = .order) && (b || decide (z.order.list ≠ s.order.list))) ||
      (decide (d = .session) && decide (t.sessionItems ≠ s.sessionItems))) := fun d hd => by
    rw [← hpending, show t = _ from ht]
    exact (hcauses d).trans (if_neg hd)
  cases cause with
  | records =>
    have hsync : hasCause t.report.causes .records = decide (t.report.changed ≠ []) := by
      rw [show t = _ from ht]
      refine (hcauses .records).trans ?_
      change (!(f z).reorder.report.changed.isEmpty) = decide ((f z).reorder.report.changed ≠ [])
      cases (f z).reorder.report.changed <;> rfl
    rw [hsync]
    cases hbefore : hasCause s.report.causes .records with
    | false => rfl
    | true =>
      obtain ⟨n, hn⟩ := List.exists_mem_of_ne_nil _ (hl.1.1 hbefore)
      have hmem : n ∈ t.report.changed := by
        rw [show t = _ from ht]
        change n ∈ (f z).reorder.report.changed
        rw [report_of_noted hnoted]
        exact (mem_noted z.report ns b n).2 (.inl ((hkeyed.told.changed n).2 (.inl hn)))
      exact decide_eq_true (List.ne_nil_of_mem hmem)
  | order =>
    have htheirs : hasCause u.report.causes .order = (hasCause s.report.causes .order || b) := by
      rw [show u = _ from hu]
      refine (hcauses' .order).trans ?_
      rw [hnoted]
      change (hasCause (s.report.noted ns b).causes .order || false) = _
      rw [hasCause_noted]
      simp
    rw [hafter _ (by simp), htheirs, show (s.mended z).order.list = z.order.list from rfl]
    cases hasCause s.report.causes .order <;> simp
  | session => rw [hafter _ (by simp)]; simp
  | loops | time | unknown => rw [hafter _ (by simp)]; simp

end WorkedOn

/-- A repair that leaves its record as `x`, worked on by `f`, ends as the same passing taken at the state it leaves. -/
theorem mendsThen (h : PassingOf s l code slot p r) (hz : s.Leaves z l code slot x)
    (hsight : x.sighting = (r.seen l p).sighting)
    (hexec : exec (.closeExpiry l code) s = .next (closeEvent s (f z))) (hstep : RaceStep z (f z)) (hnotes : Notes z f)
    (hdispatch : (z.withReport s.report).dispatch slot l p.time = f (z.withReport s.report)) :
    MendsThen (.closeExpiry l code) s slot x := by
  obtain ⟨hkeyed, -⟩ := id hz
  obtain ⟨ns, b, hnoted⟩ := hnotes.comp (.reorder (f z))
  dsimp only at hnoted
  have hall := hkeyed.step.trans hstep
  obtain ⟨hlatch, htimer⟩ := hall.latchFollows
  obtain ⟨-, -, -, -, -, hport, -⟩ := hall.passingGone
  have hexec' := exec_closeExpiry_mended h hz hsight
  rw [hdispatch] at hexec'
  refine ⟨s.mended z, _, _, hz.mends, hexec, hexec', ?_, hport, htimer, hlatch,
    closeEvent_repair_changed hkeyed hnoted, closeEvent_repair_pending hkeyed hnoted h.1.2⟩
  obtain ⟨causes, latch, ht, -, -⟩ := closeEvent_eq s (f z)
  obtain ⟨causes', latch', hu, -, -⟩ := closeEvent_eq (s.mended z) (f (z.withReport s.report))
  rw [ht, hu, hnoted]
  rfl

end

end Sys2Proof.Machine
end

section
/-! The repairs of the pit monitor (R111, R113, R114). -/

namespace Sys2Proof.Machine

section
variable {s u : State} {l : LinkNo} {code slot : Nat} {p : OpenPassing} {r x : Record} {c : PitSettings} {pos : Nat}

/-- What a repair leaves for the passing that brought it to find. -/
theorem State.Leaves.found (h : s.Leaves u l code slot x) (hphase : scoringPhase s.session.phase = true) (ρ : Reporting) :
    scoringPhase (u.withReport ρ).session.phase = true ∧ ((u.withReport ρ).link l).role = (s.link l).role ∧
    ((u.withReport ρ).link l).linePos = (s.link l).linePos ∧ (u.withReport ρ).circuit = s.circuit ∧
    (u.withReport ρ).session = s.session ∧ (u.withReport ρ).lineCount = s.lineCount := by
  obtain ⟨hkeyed, -⟩ := h
  have hsession : (u.withReport ρ).session = s.session := hkeyed.session
  have hlink : (u.withReport ρ).link l = (s.gone l code).link l := by
    rw [State.link, show (u.withReport ρ).links = (s.gone l code).links from hkeyed.step.links, State.link]
  rw [hsession, hlink, State.gone_link_self]
  exact ⟨hphase, rfl, rfl, hkeyed.step.circuit, rfl, hkeyed.lineCount⟩

theorem State.Leaves.notFinished (h : s.Leaves u l code slot x) (hx : x.state ≠ .finished) : u.notFinished slot = true := by
  obtain ⟨-, -, y, hy, hplaced⟩ := h
  rw [State.notFinished_of hy, hplaced.state]
  exact decide_eq_true hx

/-- A missed pit-in made good is worked on as the exit of its stop (R111). -/
theorem State.Leaves.dispatch_exit (h : s.Leaves u l code slot x) (hphase : scoringPhase s.session.phase = true)
    (hrole : (s.link l).role = .pitOut) (hpit : s.circuit.pit = some c) (hstate : x.state = .pit)
    (hlatest : x.latest = some p.time) (ρ : Reporting) :
    (u.withReport ρ).dispatch slot l p.time = (u.withReport ρ).pitExit slot c s.session.phase p.time := by
  obtain ⟨hscoring, hrole', -, hcircuit, hsession, -⟩ := h.found hphase ρ
  obtain ⟨-, -, y, hy, hplaced⟩ := h
  have hystate : y.state = .pit := hplaced.state.trans hstate
  have hylatest : y.latest = some p.time := (congrArg Record.latest hplaced.1 :).trans hlatest
  have hinorder : y.outOfOrder p.time = false := by
    rw [Record.outOfOrder, hylatest]
    exact decide_eq_false (Nat.lt_irrefl _)
  rw [State.dispatch_pitOut (v := u.withReport ρ) (x := y) (c := c) hscoring hy (hrole'.trans hrole) (hcircuit ▸ hpit)]
  unfold State.takePitOut
  rw [hystate]
  dsimp only
  rw [hinorder, hsession]
  rfl

/-- A stop undone or ended unseen is worked on by line scoring (R113, R114). -/
theorem State.Leaves.dispatch_score (h : s.Leaves u l code slot x) (hphase : scoringPhase s.session.phase = true)
    (hrole : (s.link l).role = .line) (hpos : (s.link l).linePos = some pos) (hstate : x.state = .running)
    (ρ : Reporting) :
    (u.withReport ρ).dispatch slot l p.time = (u.withReport ρ).scoreLine slot l pos p.time := by
  obtain ⟨hscoring, hrole', hpos', -, -, -⟩ := h.found hphase ρ
  obtain ⟨-, -, y, hy, hplaced⟩ := h
  rw [State.dispatch_line (v := u.withReport ρ) (x := y) hscoring hy (hrole'.trans hrole) (hpos'.trans hpos)]
  unfold State.dispatchLine
  rw [hplaced.state, hstate]

theorem Record.rejoined_sighting (w : Record) (s : State) (c : PitSettings) (exit : Option Nat) :
    (w.rejoined s c exit).sighting = w.sighting := by
  unfold Record.rejoined
  dsimp only
  split <;> rfl

theorem Record.cancelStop_undone (w : Record) (s : State) (hin : c.inAfter < s.lineCount) (t : Nat) :
    w.cancelStop c s.lineCount l t = w.stopUndone s c l t := by
  have hflags : dropLap w.lapFlags .pit = w.lapFlags &&& 0b1011#4 := rfl
  unfold Record.cancelStop Record.unmarkPit
  dsimp only
  rw [paint_eq_spanned, s.markEnd_eq hin, hflags]
  rfl

/-- A missed pit-in (R111). -/
theorem State.missedPitIn_repairs (h : PassingOf s l code slot p r) (hpit : s.circuit.pit = some c)
    (hin : c.inAfter < s.lineCount) (hsized : r.sized s.lineCount) (hlines : ∀ q ∈ r.lastPos, q < s.lineCount)
    (hrole : (s.link l).role = .pitOut) (hrun : r.state = .running) (horder : ∀ u ∈ r.latest, u ≤ p.time)
    (hecho : ¬ exitEchoed s r p.time) :
    ∃ r', Settles s (r.seen l p) c p.time r' ∧
      let laps := ∃ q ∈ r.lastPos, c.inAfter < q
      let chequers := s.chequeredBy slot { r' with latest := some p.time }
      (∀ e, laps → chequers e → FinishesAs s (closeEvent s ((s.seeing l code slot p r).dispatch slot l p.time)) l code slot
        (r'.flagged s.lineCount none p.time) e) ∧
      ((laps → ∀ e, ¬ chequers e) →
        MendsThen (.closeExpiry l code) s slot (r'.entered s c none p.time)) := by
  obtain ⟨hexec, hphase⟩ := exec_closeExpiry_passing h
  obtain ⟨r', hsettles, hfinishes, hleaves⟩ := State.pitEntry_outcome h hin (.inl hrun) hsized hlines none
  let u := (s.seeing l code slot p r).pitEntry slot (r.seen l p) c s.session.phase none p.time
  have htakes : (s.seeing l code slot p r).dispatch slot l p.time =
      if u.notFinished slot then u.pitExit slot c s.session.phase p.time else u := by
    have hnoecho : ¬ (r.seen l p).exitEcho s.echoGuard p.time = true := fun hx =>
      hecho ((Record.exitEcho_iff s r p.time).1 hx)
    rw [State.dispatch_pitOut hphase State.seeing_record (by rw [State.seeing_link]; exact hrole)
      (by rw [State.seeing_circuit]; exact hpit)]
    unfold State.takePitOut
    rw [show (r.seen l p).state = .running from hrun]
    dsimp only
    rw [Record.outOfOrder_inOrder horder, if_neg Bool.false_ne_true, (State.seeing_course h.2.2.2.2.1).echoGuard,
      if_neg hnoecho, State.seeing_session]
    rfl
  refine ⟨r', hsettles, fun e hlaps he => ?_, fun hno => ?_⟩
  · obtain ⟨hends, hover⟩ := hfinishes e hlaps he
    rw [htakes, show u.notFinished slot = false from hover]
    exact hends
  · have hz := hleaves hno
    rw [htakes, if_pos (hz.notFinished (by simp [Record.entered]))] at hexec
    obtain ⟨-, -, -, hsight⟩ := hsettles.keeps
    have hscoring : scoringPhase s.session.phase = true := (scoringPhase_iff _).2 h.2.2.2.2.2
    exact mendsThen (f := fun z => z.pitExit slot c s.session.phase p.time) h hz hsight hexec
      (.pitExit u slot c s.session.phase p.time) (.pitExit u slot c s.session.phase p.time)
      (hz.dispatch_exit hscoring hrole hpit rfl rfl s.report)

/-- What a line passing of a record in PIT is worked on with (R105, R113, R114). -/
theorem State.dispatch_pitLine (h : PassingOf s l code slot p r) (hpit : s.circuit.pit = some c)
    (hrole : (s.link l).role = .line) (hpos : (s.link l).linePos = some pos) (hstate : r.state = .pit) :
    (s.seeing l code slot p r).dispatch slot l p.time =
      (s.seeing l code slot p r).takePitLine slot (r.seen l p) c l pos p.time := by
  obtain ⟨-, hphase⟩ := exec_closeExpiry_passing h
  rw [State.dispatch_line hphase State.seeing_record (by rw [State.seeing_link]; exact hrole)
    (by rw [State.seeing_link]; exact hpos),
    State.dispatchLine_pit (x := r.seen l p) hstate (by rw [State.seeing_circuit]; exact hpit)]

/-- A stop undone (R113). -/
theorem State.cancelPit_repairs (h : PassingOf s l code slot p r) (hin : c.inAfter < s.lineCount)
    (hrole : (s.link l).role = .line) (hpos : (s.link l).linePos = some pos) (hlt : pos < s.lineCount)
    (hlines : ∀ q ∈ r.lastPos, q < s.lineCount)
    (hcancels : (s.seeing l code slot p r).dispatch slot l p.time =
      (s.seeing l code slot p r).cancelPit slot (r.seen l p) c l pos p.time) :
    let t := closeEvent s ((s.seeing l code slot p r).dispatch slot l p.time)
    (∀ q ∈ r.lastPos, isEcho s r q pos p.time → Rejects s t l code slot p r .echo) ∧
    (∀ q ∈ r.lastPos, ¬ isEcho s r q pos p.time → isTooSoon s r q pos p.time → Rejects s t l code slot p r .tooSoon) ∧
    ((∀ q ∈ r.lastPos, ¬ isEcho s r q pos p.time ∧ ¬ isTooSoon s r q pos p.time) →
      MendsThen (.closeExpiry l code) s slot ((r.seen l p).stopUndone s c l p.time)) := by
  have hr : s.record? slot = some r := h.2.2.2.2.1
  have hcourse := State.seeing_course (l := l) (code := code) (p := p) hr
  obtain ⟨hexec, -⟩ := exec_closeExpiry_passing h
  have htest : ∀ q ∈ r.lastPos, (s.seeing l code slot p r).cancelTest (r.seen l p) pos p.time =
      s.lineTest q r.lastTime r.reference pos p.time := fun q hq => by
    unfold State.cancelTest
    rw [show (r.seen l p).lastPos = some q from hq, hcourse.lineTest]
    rfl
  have hrejected : ∀ why, (s.seeing l code slot p r).cancelTest (r.seen l p) pos p.time = .rejected why →
      Rejects s (closeEvent s ((s.seeing l code slot p r).dispatch slot l p.time)) l code slot p r why := fun why hwhy => by
    rw [hcancels, State.cancelPit, hwhy]
    exact closeEvent_rejected h why
  refine ⟨fun q hq hecho => ?_, fun q hq hecho hsoon => ?_, fun hpasses => ?_⟩
  · exact hrejected .echo ((htest q hq).trans (State.lineTest_echo (hlines q hq) hlt hecho))
  · exact hrejected .tooSoon ((htest q hq).trans (State.lineTest_tooSoon (hlines q hq) hlt hecho hsoon))
  · let u := ((s.gone l code).putRecord slot ((r.seen l p).stopUndone s c l p.time)).reorder
    have hgoes : ∃ k, (s.seeing l code slot p r).cancelTest (r.seen l p) pos p.time = .steps k := by
      cases hlast : r.lastPos with
      | none => exact ⟨0, by rw [State.cancelTest, show (r.seen l p).lastPos = none from hlast]⟩
      | some q =>
        obtain ⟨hecho, hsoon⟩ := hpasses q hlast
        exact ⟨_, (htest q hlast).trans (State.lineTest_passes (hlines q hlast) hlt hecho hsoon)⟩
    obtain ⟨k, hk⟩ := hgoes
    have hscores : (s.seeing l code slot p r).dispatch slot l p.time = u.scoreLine slot l pos p.time := by
      rw [hcancels, State.cancelPit, hk]
      dsimp only
      rw [hcourse.lineCount, Record.cancelStop_undone _ s hin,
        State.seeing_putRecord (x := (r.seen l p).stopUndone s c l p.time) hr rfl]
    obtain ⟨hkeyed, hlead, y, hy, hplaced, -⟩ := Keyed.of_written (x := (r.seen l p).stopUndone s c l p.time) h rfl rfl rfl
    have hz : s.Leaves u l code slot ((r.seen l p).stopUndone s c l p.time) := ⟨hkeyed, hlead, y, hy, hplaced⟩
    rw [hscores] at hexec
    have hscoring : scoringPhase s.session.phase = true := (scoringPhase_iff _).2 h.2.2.2.2.2
    exact mendsThen (f := fun z => z.scoreLine slot l pos p.time) h hz rfl hexec (.scoreLine u slot l pos p.time)
      (.scoreLine u slot l pos p.time) (hz.dispatch_score hscoring hrole hpos rfl s.report)

/-- A missed pit-out (R114). -/
theorem State.missedPitOut_repairs (h : PassingOf s l code slot p r) (hlines : 1 ≤ s.lineCount)
    (hsized : r.sized s.lineCount) (hrole : (s.link l).role = .line) (hpos : (s.link l).linePos = some pos)
    (hlt : pos < s.lineCount) (hstate : r.state = .pit) (horder : ∀ u ∈ r.latest, u ≤ p.time)
    (hmissed : (s.seeing l code slot p r).dispatch slot l p.time =
      (s.seeing l code slot p r).missedPitOut slot (r.seen l p) c l s.session.phase pos p.time) :
    let t := closeEvent s ((s.seeing l code slot p r).dispatch slot l p.time)
    let back := s.rejoinAt c
    let off := { r with lastPos := some back, lastTime := none }
    (isEcho s off back pos p.time → Rejects s t l code slot p r .echo) ∧
    (¬ isEcho s off back pos p.time →
      let r' := Record.rejoined (r.seen l p).exitUnseen s c none
      (∀ e, r.lapsAtRejoin c → s.chequeredBy slot r' e →
        FinishesAs s t l code slot (r'.flagged s.lineCount none p.time) e) ∧
      ((r.lapsAtRejoin c → ∀ e, ¬ s.chequeredBy slot r' e) → MendsThen (.closeExpiry l code) s slot r')) := by
  have hr : s.record? slot = some r := h.2.2.2.2.1
  have hcourse := State.seeing_course (l := l) (code := code) (p := p) hr
  obtain ⟨hexec, -⟩ := exec_closeExpiry_passing h
  intro t back off
  have hback : back < s.lineCount := Nat.mod_lt _ hlines
  have htest : (s.seeing l code slot p r).lineTest (rejoinPos c s.lineCount) none ((r.seen l p).latest.getD 0) pos p.time =
      s.lineTest back off.lastTime off.reference pos p.time := by
    rw [hcourse.lineTest, rejoinPos_eq s hlines]
    rfl
  refine ⟨fun hecho => ?_, fun hecho => ?_⟩
  · change Rejects s (closeEvent s ((s.seeing l code slot p r).dispatch slot l p.time)) l code slot p r .echo
    rw [hmissed, State.missedPitOut, hcourse.lineCount, htest, State.lineTest_echo hback hlt hecho]
    exact closeEvent_rejected h .echo
  · intro r'
    have hsoon : ¬ isTooSoon s off back pos p.time := by
      unfold isTooSoon
      rw [if_pos rfl]
      have hlate : r.latest.getD 0 ≤ p.time := by
        cases hlatest : r.latest with
        | none => exact Nat.zero_le _
        | some u => exact horder u hlatest
      change ¬ (p.time : Int) - ((r.latest.getD 0 : Nat) : Int) < 0
      omega
    let u := (s.seeing l code slot p r).rejoin slot (r.seen l p).exitUnseen c s.session.phase none p.time
    have hgoes : (s.seeing l code slot p r).dispatch slot l p.time =
        if u.notFinished slot then u.scoreLine slot l pos p.time else u := by
      rw [hmissed, State.missedPitOut, hcourse.lineCount, htest, State.lineTest_passes hback hlt hecho hsoon]
    obtain ⟨hfinishes, hleaves⟩ := State.rejoin_outcome (c := c) (exit := none) (w := (r.seen l p).exitUnseen) h hstate rfl
      rfl rfl hstate hlines (hsized.2.1.trans hsized.1.symm) (by simp)
    refine ⟨fun e hlaps he => ?_, fun hno => ?_⟩
    · obtain ⟨hends, hover⟩ := hfinishes e hlaps he
      change FinishesAs s (closeEvent s ((s.seeing l code slot p r).dispatch slot l p.time)) l code slot _ e
      rw [hgoes, show u.notFinished slot = false from hover]
      exact hends
    · have hz : s.Leaves u l code slot r' := hleaves hno
      have hrun : r'.state = .running := rfl
      rw [hgoes, if_pos (hz.notFinished (by rw [hrun]; simp))] at hexec
      have hscoring : scoringPhase s.session.phase = true := (scoringPhase_iff _).2 h.2.2.2.2.2
      exact mendsThen (f := fun z => z.scoreLine slot l pos p.time) h hz (Record.rejoined_sighting _ s c none) hexec
        (.scoreLine u slot l pos p.time) (.scoreLine u slot l pos p.time)
        (hz.dispatch_score hscoring hrole hpos hrun s.report)

end

/-- Settles O43: each repair leaves a state at which the passing is taken again. -/
theorem pitRepairs : Obligations.PitRepairs := by
  intro s l code slot p r c h hpit hin hout hsized hlines
  have hcourse := State.seeing_course (l := l) (code := code) (p := p) (show s.record? slot = some r from h.2.2.2.2.1)
  obtain ⟨hexec, -⟩ := exec_closeExpiry_passing h
  refine ⟨_, hexec, fun hrole hrun horder hecho =>
    State.missedPitIn_repairs h hpit hin hsized hlines hrole hrun horder hecho, fun pos hrole hpos hlt hstate => ?_⟩
  intro skipped back off
  have htakes := State.dispatch_pitLine h hpit hrole hpos hstate
  have hinorder : (∀ u ∈ r.latest, u ≤ p.time) → (s.seeing l code slot p r).dispatch slot l p.time =
      if bypassesPos c s.lineCount pos then (s.seeing l code slot p r).cancelPit slot (r.seen l p) c l pos p.time
      else (s.seeing l code slot p r).missedPitOut slot (r.seen l p) c l s.session.phase pos p.time := fun horder => by
    rw [htakes, State.takePitLine, Record.outOfOrder_inOrder horder, if_neg Bool.false_ne_true, hcourse.lineCount,
      State.seeing_session]
  refine ⟨fun hlate => ?_, fun horder hskip => ?_, fun horder hskip => ?_⟩
  · rw [htakes, State.takePitLine, if_pos (Record.outOfOrder_late hlate)]
    exact closeEvent_rejected h .outOfState
  · exact State.cancelPit_repairs h hin hrole hpos hlt hlines
      ((hinorder horder).trans (if_pos ((bypassesPos_iff s hin pos).2 hskip)))
  · exact State.missedPitOut_repairs h (by omega) hsized hrole hpos hlt hstate horder
      ((hinorder horder).trans (if_neg fun hx => hskip ((bypassesPos_iff s hin pos).1 hx)))

end Sys2Proof.Machine
end
